-- ==== Sys2Proof/Word.lean ====
section
/-! DEFINITION. The words of the WFU: bytes, 16-bit table entries and sizes, 32-bit port values (00_scope.md R8, R11). -/

namespace Sys2Proof

/-- A byte or octet, 8 bits, bit 0 the least significant (R11). -/
abbrev Byte := BitVec 8

/-- A geometry register or a LUT entry, 16 bits (R8, R30). -/
abbrev Half := BitVec 16

/-- A value on the host port, a time or a length register, 32 bits (R8, R37). -/
abbrev Word := BitVec 32

end Sys2Proof
end

