-- ==== Sys2Proof/Syntax.lean ====
section
/-! DEFINITION. The commands of the WFU, one constructor per row of the command table (30_encoding.md R91). -/

namespace Sys2Proof

/-- The SRC operand of PACK and RUN, the only operand field of any command (R92). -/
inductive Src where
  /-- SRC = 0: the pixels come from the reorder buffer RB, the panel mapper is in the path. -/
  | reorder
  /-- SRC = 1: the pixels come straight from FB in raster order. -/
  | canvas
  deriving DecidableEq, Repr

/-- A command (R91). Every other operand is implicit (R94). -/
inductive Instr where
  /-- CFGBUILD, word 0x01 (R110). -/
  | cfgbuild
  /-- CFGCHECK, word 0x02 (R113). -/
  | cfgcheck
  /-- MAP, word 0x03 (R150). -/
  | map
  /-- PACK, word 0x04 or 0x14 (R130). -/
  | pack (src : Src)
  /-- FRAME, word 0x05 (R140). -/
  | frame
  /-- SPLIT, word 0x06 (R170). -/
  | split
  /-- RUN, word 0x07 or 0x17 (R180). -/
  | run (src : Src)
  deriving DecidableEq, Repr

end Sys2Proof
end

