-- ==== Sys2Proof/WellFormed.lean ====
section
/-! DEFINITION. Format CMD8 as its three fields (30_encoding.md R90) and which field values are legal (R90, R91, R93); and a command's
own fields. -/

namespace Sys2Proof

/-- The fields of a command word, format CMD8 (R90). -/
structure Cmd8 where
  /-- ZERO, bits [7:5]. -/
  zero : BitVec 3
  /-- SRC, bit [4]. -/
  src : BitVec 1
  /-- OP, bits [3:0]. -/
  op : BitVec 4
  deriving DecidableEq, Repr

/-- Bits [7:5] "must be 000" (R90). -/
def Cmd8.zeroOk (c : Cmd8) : Bool := c.zero == 0

/-- OP is one of the seven operation codes 1 to 7 (R91, R93). -/
def Cmd8.opOk (c : Cmd8) : Bool := decide (1 ≤ c.op.toNat) && decide (c.op.toNat ≤ 7)

/-- SRC is "used by PACK and RUN only; must be 0 in every other command" (R90). -/
def Cmd8.srcOk (c : Cmd8) : Bool := c.src == 0 || c.op == 4 || c.op == 7

/-- A legal command word's fields (R93). -/
def Cmd8.wellFormed (c : Cmd8) : Bool := c.zeroOk && c.opOk && c.srcOk

/-- The SRC bit of an operand (R92). -/
def Src.bit : Src → BitVec 1
  | .reorder => 0
  | .canvas => 1

/-- The fields of a command (R91). -/
def Instr.fields : Instr → Cmd8
  | .cfgbuild => ⟨0, 0, 0x1⟩
  | .cfgcheck => ⟨0, 0, 0x2⟩
  | .map => ⟨0, 0, 0x3⟩
  | .pack src => ⟨0, src.bit, 0x4⟩
  | .frame => ⟨0, 0, 0x5⟩
  | .split => ⟨0, 0, 0x6⟩
  | .run src => ⟨0, src.bit, 0x7⟩

/-- A command is well-formed when its fields are legal. -/
abbrev Instr.WellFormed (i : Instr) : Prop := i.fields.wellFormed = true

end Sys2Proof
end

