-- ==== Sys2Proof/Decode.lean ====
section
/-! DEFINITION. The decoder, total on every 8-bit word (30_encoding.md R95), and the encoder, both from the table of R91. -/

namespace Sys2Proof

/-- Why a word is illegal (R93). -/
inductive Reject where
  /-- A bit of [7:5] is set. -/
  | reservedBits
  /-- OP is 0x0 or 0x8 to 0xF. -/
  | reservedOp
  /-- SRC = 1 on a command without a SRC operand. -/
  | noSrcOperand
  deriving DecidableEq, Repr

/-- The fields of a word (R90). -/
def splitWord (w : Byte) : Cmd8 := ⟨w.extractLsb' 5 3, w.extractLsb' 4 1, w.extractLsb' 0 4⟩

/-- The word of the fields (R90). -/
def joinWord (c : Cmd8) : Byte := c.zero ++ c.src ++ c.op

/-- The SRC operand of a bit (R92). -/
def srcOfBit (b : BitVec 1) : Src := if b = 0 then .reorder else .canvas

/-- The command of OP and SRC, or why there is none (R91, R93). -/
def decodeOp (op : BitVec 4) (src : BitVec 1) : Except Reject Instr :=
  let plain (i : Instr) : Except Reject Instr := if src = 0 then .ok i else .error .noSrcOperand
  match op.toNat with
  | 1 => plain .cfgbuild
  | 2 => plain .cfgcheck
  | 3 => plain .map
  | 4 => .ok (.pack (srcOfBit src))
  | 5 => plain .frame
  | 6 => plain .split
  | 7 => .ok (.run (srcOfBit src))
  | _ => .error .reservedOp

/-- The command a word selects (R91), or why it is illegal (R93). -/
def decode (w : Byte) : Except Reject Instr :=
  let c := splitWord w
  if c.zero = 0 then decodeOp c.op c.src else .error .reservedBits

/-- The word of a command (R91). -/
def encode (i : Instr) : Byte := joinWord i.fields

/-- The decoder on a row of the command table: a command is one 8-bit word (R90), so bits above bit 7 must be 0. -/
def decodeTableWord (nbits w : Nat) : Option Instr :=
  let v := w % 2 ^ nbits
  if v < 256 then
    match decode (BitVec.ofNat 8 v) with
    | .ok i => some i
    | .error _ => none
  else none

/-- "Match" of a command's row (R91). -/
def tableMatch : Instr → Byte
  | .cfgbuild => 0x01
  | .cfgcheck => 0x02
  | .map => 0x03
  | .pack _ => 0x04
  | .frame => 0x05
  | .split => 0x06
  | .run _ => 0x07

/-- "Mask" of a command's row (R91). -/
def tableMask : Instr → Byte
  | .pack _ => 0xEF
  | .run _ => 0xEF
  | .cfgbuild => 0xFF
  | .cfgcheck => 0xFF
  | .map => 0xFF
  | .frame => 0xFF
  | .split => 0xFF

end Sys2Proof
end

