-- ==== Sys2Proof/Config.lean ====
section
/-! DEFINITION. What is fixed for the machine (00_scope.md R6, R7, R8) and the free values. An `opaque` constant has no body:
nothing in Lean can evaluate it, so a claim about it holds for every value it may take. -/

namespace Sys2Proof.Config

/-- `SEED`, the start value of the checksum fold (R6). -/
def seed : Byte := 0xAA

/-- `GROUP`, the pixels of one mask byte (R6). -/
def group : Nat := 7

/-- `CPKT_LEN`, the bytes of a ConfigPacket (R6). -/
def cpktLen : Nat := 13

/-- `CFG_LEN`, the octets the checksum covers (R6). -/
def cfgLen : Nat := 12

/-- `SAMPLE_MAX`, the largest intensity sample (R6). -/
def sampleMax : Nat := 255

/-- `OM`, the outer frame marker: OPEN (R7, log 1). -/
opaque om : Byte

/-- How far `IM` lies above `OM`, less 1: OPEN (log 1). -/
opaque imOffset : Fin 255

/-- `IM`, the inner-format marker: OPEN, any byte but `OM` (R7, log 1). -/
def im : Byte := om + BitVec.ofNat 8 (imOffset.val + 1)

/-- `FB_DEPTH` less 1: OPEN (R8, log 2). The bound is `2 + ceil(FB_DEPTH / 7) < 2^32`, that is
`FB_DEPTH <= 7 * (2^32 - 3)`. -/
opaque fbDepthLess1 : Fin 30064771051

/-- `FB_DEPTH`, the cells of FB and of RB (R8). -/
def fbDepth : Nat := fbDepthLess1.val + 1

/-- `LUT_DEPTH` less 1: OPEN (R8, log 2). -/
opaque lutDepthLess1 : Fin 65535

/-- `LUT_DEPTH`, the entries of the panel LUT, 1 to 65535 (R8). -/
def lutDepth : Nat := lutDepthLess1.val + 1

/-- `PK_CAP`, the bytes of PKF, `1 + ceil(FB_DEPTH / 7)` (R8). -/
def pkCap : Nat := 1 + (fbDepth + 6) / 7

/-- `WF_CAP`, the bytes of WFR, `2 + ceil(FB_DEPTH / 7)` (R8). -/
def wfCap : Nat := 2 + (fbDepth + 6) / 7

/-- The free value a LUT cell with no defined value reads as, by draw and index (R78, U1, log 3). -/
opaque freeLut : Nat → Nat → Half

/-- The same for FB (R78, U1, log 3). -/
opaque freeFb : Nat → Nat → Byte

/-- The same for RB (R78, U2, log 10). -/
opaque freeRb : Nat → Nat → Byte

/-- The same for PKF (R78, U2, log 10). -/
opaque freePkf : Nat → Nat → Byte

/-- The same for WFR (R78, U2, log 10). -/
opaque freeWfr : Nat → Nat → Byte

/-- Whether the sink answers `ok` to a chunk the sink script does not cover, by draw (R70, U11, log 6). -/
opaque sinkOk : Nat → Bool

/-- The free time between the end of the wait and the start of such a hand-over, by draw (R215, U12, log 6). -/
opaque sinkLag : Nat → Nat

/-- The free time such a hand-over takes, by draw (R36, U12, log 6). -/
opaque sinkTook : Nat → Nat

end Sys2Proof.Config
end

