-- ==== Sys2Proof/Machine/State.lean ====
section
/-! DEFINITION. The state of the WFU (10_state.md R20) and of the agents around it (00_scope.md R10), as plain data; its value after
reset; the ways a step can stop. -/

namespace Sys2Proof.Machine

/-- A memory space as its cells with a defined value, by rising index; an index that is not listed has none (20_memory.md R78,
log 3). With `n = 8` a cell is a `Host.Cell`. -/
abbrev Memory (n : Nat) := List (Nat × BitVec n)

/-- The memory spaces a host access can name (20_memory.md R61). -/
inductive Space where
  | lut
  | fb
  | rb
  | pkf
  | wfr
  deriving DecidableEq, Repr

/-- The transmit sink's answer to a chunk (20_memory.md R70). -/
inductive Answer where
  | ok
  | fail
  deriving DecidableEq, Repr

/-- One record of the transmit log (10_state.md R36). -/
structure TxRecord where
  bytes : List Byte
  first : Bool
  last : Bool
  answer : Answer
  /-- `t_start`, when the hand-over began. -/
  tStart : Nat
  /-- `t_end`, when the sink's answer arrived. In the record of a hand-over that a reset cut short no answer has arrived and the spec gives
  no `t_end`: DESIGN CHOICE, the time of the reset (log 13). -/
  tEnd : Nat
  deriving DecidableEq, Repr

/-- What an observer saw of a chunk whose hand-over a reset cut short: its first `keep` bytes, then `tail` in place of the rest
(93_implementation_defined.md U5, log 13). -/
structure Cut where
  keep : Nat
  tail : List Byte
  answer : Answer
  deriving DecidableEq, Repr

/-- What the environment does with one hand-over (log 6, 7, 8, 13). -/
inductive SinkEvent where
  /-- The hand-over starts `lag` ticks after the sequencer may start it, and `took` ticks later the sink answers (R70, R215). -/
  | answers (answer : Answer) (lag took : Nat)
  /-- The sink never answers (60_exceptions.md R216 (a)). -/
  | silent
  /-- As `answers`, but the clock never passes the deadline the WFU then sets, if that lies ahead (R216 (b)). -/
  | stalls (answer : Answer) (lag took : Nat)
  /-- Reset arrives `lag + took` ticks after the sequencer may start the hand-over, which started after `lag` of them; the sink has
  seen nothing of the chunk, or a cut of it (70_reset_and_hazards.md R231). The record of a cut has the time of this reset as its
  `t_end` (DESIGN CHOICE, log 13). -/
  | reset (lag took : Nat) (seen : Option Cut)
  deriving DecidableEq, Repr

/-- A host transaction (20_memory.md R61), or the reset input (70_reset_and_hazards.md R230). -/
inductive HostAction where
  /-- `RegWrite(n, v)`. -/
  | regWrite (n : Byte) (v : Word)
  /-- `RegRead(n)`. -/
  | regRead (n : Byte)
  /-- `MemWrite(S, i, v)`. -/
  | memWrite (sp : Space) (i : Nat) (v : Word)
  /-- `MemRead(S, i)`. -/
  | memRead (sp : Space) (i : Nat)
  /-- `Cmd(w)`. -/
  | cmd (w : Byte)
  /-- The reset event. -/
  | reset
  deriving DecidableEq, Repr

/-- One event on the WFU's inputs: it comes `after` ticks after the one before returned, and returns `busy` ticks after the earliest
time the WFU's own waits allow (60_exceptions.md R213, R215; log 7). -/
structure HostEvent where
  after : Nat
  action : HostAction
  busy : Nat
  deriving DecidableEq, Repr

/-- What a transaction returns to the host (20_memory.md R61). -/
inductive Response where
  /-- A write, or a reset: nothing. -/
  | nothing
  /-- A read: a 32-bit value. -/
  | value (v : Word)
  /-- A command: its 4-bit result code. -/
  | result (code : BitVec 4)
  deriving DecidableEq, Repr

/-- The state: what 10_state.md R20 gives the WFU, then the transmit log (R36), then the model's own fields for the inputs and
outputs of a step (log 4, 5, 6, 7, 9, 15). -/
@[ext]
structure State where
  /-- CFG[0..11] (R21). -/
  cfg : Vector Byte 12
  /-- CPKT[0..12] (R22). -/
  cpkt : Vector Byte 13
  /-- FOLD (R23). -/
  fold : Byte
  /-- VALID bit 0 (R25). -/
  rbv : Bool
  /-- VALID bit 1 (R25). -/
  pkv : Bool
  /-- VALID bit 2 (R25). -/
  wfv : Bool
  /-- RESULT (R26). -/
  result : BitVec 4
  /-- EINFO (R26). -/
  einfo : Word
  /-- FAULTS (R26). -/
  faults : Byte
  /-- W, the canvas width (R27). -/
  w : Half
  /-- H, the canvas height (R27). -/
  h : Half
  /-- PW, the panel width (R27). -/
  pw : Half
  /-- PH, the panel height (R27). -/
  ph : Half
  /-- NP, the number of panels (R27). -/
  np : Half
  /-- MAXCHUNK (R27). -/
  maxchunk : Half
  /-- PACE_GAP (R28). -/
  paceGap : Word
  /-- PACE_FRAME (R28). -/
  paceFrame : Word
  /-- RBLEN (R29). -/
  rblen : Word
  /-- PKLEN (R29). -/
  pklen : Word
  /-- WFLEN (R29). -/
  wflen : Word
  /-- NCHUNK (R29). -/
  nchunk : Word
  /-- LUT (R30). -/
  lut : Memory 16
  /-- FB (R31). -/
  fb : Memory 8
  /-- RB (R32). -/
  rb : Memory 8
  /-- PKF (R33). -/
  pkf : Memory 8
  /-- WFR (R33). -/
  wfr : Memory 8
  /-- TX_READY_AT (R35). -/
  txReadyAt : Nat
  /-- TXLOG (R36), oldest first. -/
  txlog : List TxRecord
  /-- The time `now` (60_exceptions.md R213). -/
  now : Nat
  /-- The host's events still to come. -/
  script : List HostEvent
  /-- What the sink will do with the next hand-overs. -/
  sink : List SinkEvent
  /-- The counter of free values. -/
  draws : Nat
  /-- What the last event returned. -/
  response : Response
  /-- Whether since reset the host has left the interface (70_reset_and_hazards.md R252). -/
  offInterface : Bool
  deriving DecidableEq, Repr

/-- How the machine stops for good. -/
inductive Fault where
  /-- Raised by SPLIT and RUN when the sink never answers a chunk, or the clock never passes a deadline they wait for: the command and
  the blocked host wait for ever (60_exceptions.md R216, log 8). Safe: nothing can be proved of a state after it. -/
  | hang
  deriving DecidableEq, Repr

/-- Why the model gives an instruction no meaning. -/
inductive Refusal where
  /-- Raised by an arm of `exec` without a meaning: no arm of this model. Safe. -/
  | notModelled (mnemonic : String)
  deriving DecidableEq, Repr

/-- The state right after reset (10_state.md R38): every register 0, the flags 0, no memory cell with a defined value (R232), the log
empty, TX_READY_AT the time of reset. The time, the inputs and the model's other fields are of log 4, 5, 6, 7, 9, 15. -/
def State.reset : State where
  cfg := Vector.replicate 12 0
  cpkt := Vector.replicate 13 0
  fold := 0
  rbv := false
  pkv := false
  wfv := false
  result := 0
  einfo := 0
  faults := 0
  w := 0
  h := 0
  pw := 0
  ph := 0
  np := 0
  maxchunk := 0
  paceGap := 0
  paceFrame := 0
  rblen := 0
  pklen := 0
  wflen := 0
  nchunk := 0
  lut := []
  fb := []
  rb := []
  pkf := []
  wfr := []
  txReadyAt := 0
  txlog := []
  now := 0
  script := []
  sink := []
  draws := 0
  response := .nothing
  offInterface := false

end Sys2Proof.Machine
end

