-- ==== Sys2Proof/Machine/Ops.lean ====
section
/-! DEFINITION. The shared operations: a memory's cells, exact arithmetic, ending a command (`raise` is the entry of an error,
60_exceptions.md R206, `done` its counterpart; there is no return, R208), time, the hand-over to the transmit sink, and reset. -/

namespace Sys2Proof.Machine

/-! ### Arithmetic (00_scope.md R11) -/

/-- `ceil(a / b)`, which is `(a + b - 1) div b`, for `b >= 1`; `ceil(0 / b) = 0` (R11). -/
def ceilDiv (a b : Nat) : Nat := (a + b - 1) / b

/-! ### A memory's cells (20_memory.md R60, R65, R78) -/

/-- The canonical form: indices strictly rising. (No entry can equal what an unlisted index reads as: that is no value, log 3.) -/
abbrev Memory.wf {n : Nat} (m : Memory n) : Prop := m.Pairwise fun c d => c.1 < d.1

/-- Every listed index is below the capacity of the space. -/
abbrev Memory.below {n : Nat} (cap : Nat) (m : Memory n) : Prop := ∀ c ∈ m, c.1 < cap

/-- The defined value of a cell, if it has one (R78). -/
def Memory.read {n : Nat} : Memory n → Nat → Option (BitVec n)
  | [], _ => none
  | (a, v) :: rest, i => if a = i then some v else Memory.read rest i

/-- `MemWrite` of one element (00_scope.md R12). -/
def Memory.write {n : Nat} : Memory n → Nat → BitVec n → Memory n
  | [], i, v => [(i, v)]
  | (a, u) :: rest, i, v =>
    if i < a then (i, v) :: (a, u) :: rest
    else if i = a then (i, v) :: rest
    else (a, u) :: Memory.write rest i v

/-- `MemWrite` of the elements of `vs` at `i`, `i + 1`, and so on. -/
def Memory.writeFrom {n : Nat} (m : Memory n) (i : Nat) : List (BitVec n) → Memory n
  | [] => m
  | v :: vs => Memory.writeFrom (Memory.write m i v) (i + 1) vs

/-! ### The end of a command (60_exceptions.md R200, R206) -/

/-- The error kinds (R200). -/
inductive ErrKind where
  | enc
  | xport
  | layout
  | seq
  | param
  | cmd
  | chk
  deriving DecidableEq, Repr

/-- The result code of an error (R200). -/
def errCode : ErrKind → BitVec 4
  | .enc => 1
  | .xport => 2
  | .layout => 3
  | .seq => 4
  | .param => 5
  | .cmd => 6
  | .chk => 7

/-- FAULTS with the sticky bit of a result code set (10_state.md R26). -/
def setFaultBit (faults : Byte) (code : BitVec 4) : Byte := faults ||| BitVec.twoPow 8 code.toNat

/-- `raise E_X(info)` (R206): RESULT, EINFO, the sticky bit of FAULTS, and the response; nothing more. -/
def raise (e : ErrKind) (info : Word) (s : State) : State :=
  { s with
    result := errCode e
    einfo := info
    faults := setFaultBit s.faults (errCode e)
    response := .result (errCode e) }

/-- `done` (00_scope.md R12): RESULT and EINFO 0, response OK. -/
def done (s : State) : State :=
  { s with result := 0, einfo := 0, response := .result 0 }

/-! ### Time (60_exceptions.md R213, R215) -/

/-- Time passes. -/
def elapse (ticks : Nat) (s : State) : State := { s with now := s.now + ticks }

/-- `WaitUntil(t)` (R215), at its lower bound; what it takes beyond that is the environment's (log 7). -/
def waitUntil (t : Nat) (s : State) : State := { s with now := max s.now t }

/-- Whether the wait for TX_READY_AT ends: "if `now >= t` already, it does not wait" (R215), and else only if the clock passes the
deadline (R216 (b)). -/
def waitEnds (clockMoves : Bool) (s : State) : Bool := clockMoves || decide (s.txReadyAt ≤ s.now)

/-! ### Reset (70_reset_and_hazards.md R230, R232) -/

/-- The reset event: the state of `State.reset`, at the current time, with the inputs still to come and the counter of free values
kept (log 13). -/
def applyReset (s : State) : State :=
  { State.reset with
    now := s.now
    txReadyAt := s.now
    script := s.script
    sink := s.sink
    draws := s.draws }

/-! ### The transmit port (20_memory.md R70) -/

/-- The outcome of `TxEmit`. -/
inductive Emission where
  /-- The sink has answered; the state's `now` is `t_end`. Whether the clock then passes the deadline to come (R216 (b)). -/
  | answered (answer : Answer) (clockMoves : Bool) (s : State)
  /-- The sink never answers (R216 (a)). -/
  | silent
  /-- Reset cut the hand-over short (R231). -/
  | abandoned (s : State)

/-- What the environment does with the next hand-over: the head of the sink script, or, past its end, free values (log 6). -/
def nextSinkEvent (s : State) : SinkEvent :=
  match s.sink with
  | e :: _ => e
  | [] =>
    .answers (if Config.sinkOk s.draws then .ok else .fail) (Config.sinkLag s.draws) (Config.sinkTook s.draws)

/-- The state once that event is taken: the sink script goes on, or, past its end, the next draw is a fresh one. -/
def takeSinkEvent (s : State) : State :=
  { s with sink := s.sink.tail, draws := if s.sink.isEmpty then s.draws + 1 else s.draws }

/-- The bytes an observer saw of a chunk whose hand-over was cut short (93_implementation_defined.md U5, log 13). -/
def cutBytes (chunk : List Byte) (c : Cut) : List Byte :=
  chunk.take c.keep ++ c.tail.take (chunk.length - c.keep)

/-- The state once the sink has answered (R70): the time is `t_end`, and the record of the call is appended to TXLOG
(10_state.md R36). -/
def recordAnswer (bytes : List Byte) (first last : Bool) (answer : Answer) (lag took : Nat) (s : State) : State :=
  { takeSinkEvent s with
    now := s.now + lag + took
    txlog := s.txlog ++ [⟨bytes, first, last, answer, s.now + lag, s.now + lag + took⟩] }

/-- `TxEmit(bytes, first, last)` (R70): hands one chunk to the sink. A reset in the hand-over leaves at most one record of the call
(R231); its bytes and its answer are what the environment says was seen (93_implementation_defined.md U5), and its `t_end`, which the spec
does not give since no answer has arrived, is the time of the reset (DESIGN CHOICE, log 13). -/
def txEmit (bytes : List Byte) (first last : Bool) (s : State) : Emission :=
  match nextSinkEvent s with
  | .answers answer lag took => .answered answer true (recordAnswer bytes first last answer lag took s)
  | .stalls answer lag took => .answered answer false (recordAnswer bytes first last answer lag took s)
  | .silent => .silent
  | .reset lag took seen =>
    let t := applyReset (elapse (lag + took) (takeSinkEvent s))
    .abandoned { t with
      txlog := (seen.map fun c =>
        (⟨cutBytes bytes c, first, last, c.answer, s.now + lag, s.now + lag + took⟩ : TxRecord)).toList }

/-- Applies `f` to the next state of an outcome. -/
def mapNext (f : State → State) :
    Host.Outcome State Fault Refusal → Host.Outcome State Fault Refusal
  | .next s => .next (f s)
  | .fault r => .fault r
  | .refused r => .refused r

end Sys2Proof.Machine
end

