-- ==== Sys2Proof/Machine/Flags.lean ====
section
/-! DEFINITION. The three valid flags as the VALID register, and the flag changes at the start of a command and at the acceptance of
its source (10_state.md R25). There are no arithmetic condition codes. -/

namespace Sys2Proof.Machine

/-- VALID: bit 2 WFV, bit 1 PKV, bit 0 RBV (R25, R37). -/
def validRegister (s : State) : BitVec 3 :=
  BitVec.ofBool s.wfv ++ BitVec.ofBool s.pkv ++ BitVec.ofBool s.rbv

/-- The start of MAP: RBV is cleared. The free values of this command are those of the draw before (log 4). -/
def startMap (s : State) : State := { s with rbv := false, draws := s.draws + 1 }

/-- The start of PACK: PKV is cleared. -/
def startPack (s : State) : State := { s with pkv := false, draws := s.draws + 1 }

/-- The start of FRAME: WFV is cleared. -/
def startFrame (s : State) : State := { s with wfv := false, draws := s.draws + 1 }

/-- PACK with SRC = 0 accepts RB: RBV is cleared. -/
def consumeRb (s : State) : State := { s with rbv := false }

/-- FRAME accepts PKF: PKV is cleared. -/
def consumePkf (s : State) : State := { s with pkv := false }

/-- SPLIT accepts WFR: WFV is cleared, and NCHUNK starts at 0 (43_split.md R170). -/
def consumeWfr (s : State) : State := { s with wfv := false, nchunk := 0, draws := s.draws + 1 }

end Sys2Proof.Machine
end

