-- ==== Sys2Proof/Machine/Operands.lean ====
section
/-! DEFINITION. The operands: the register map (10_state.md R37), the memory cells with a value for every index (20_memory.md R78),
the canvas and panel geometry (42_panel_map.md R151), and the pixels of PACK (41_pack_frame.md R130). -/

namespace Sys2Proof.Machine

/-! ### The register map -/

/-- The registers by name (R37). -/
inductive Reg where
  | cfg (i : Fin 12)
  | cpkt (i : Fin 13)
  | w
  | h
  | pw
  | ph
  | np
  | maxchunk
  | paceGap
  | paceFrame
  | result
  | einfo
  | faults
  | valid
  | fold
  | rblen
  | pklen
  | wflen
  | nchunk
  | omark
  | imark
  deriving DecidableEq, Repr

/-- The register of a number; none for a reserved number (R37). -/
def regOfNumber (n : Byte) : Option Reg :=
  let k := n.toNat
  if hk : k < 12 then some (.cfg ⟨k, hk⟩)
  else if hk : 0x10 ≤ k ∧ k < 0x1D then some (.cpkt ⟨k - 0x10, by omega⟩)
  else
    match k with
    | 0x20 => some .w
    | 0x21 => some .h
    | 0x22 => some .pw
    | 0x23 => some .ph
    | 0x24 => some .np
    | 0x25 => some .maxchunk
    | 0x26 => some .paceGap
    | 0x27 => some .paceFrame
    | 0x30 => some .result
    | 0x31 => some .einfo
    | 0x32 => some .faults
    | 0x33 => some .valid
    | 0x34 => some .fold
    | 0x35 => some .rblen
    | 0x36 => some .pklen
    | 0x37 => some .wflen
    | 0x38 => some .nchunk
    | 0x3E => some .omark
    | 0x3F => some .imark
    | _ => none

/-- A register's value, zero-extended to 32 bits (20_memory.md R63). -/
def readReg (r : Reg) (s : State) : Word :=
  match r with
  | .cfg i => s.cfg[i].setWidth 32
  | .cpkt i => s.cpkt[i].setWidth 32
  | .w => s.w.setWidth 32
  | .h => s.h.setWidth 32
  | .pw => s.pw.setWidth 32
  | .ph => s.ph.setWidth 32
  | .np => s.np.setWidth 32
  | .maxchunk => s.maxchunk.setWidth 32
  | .paceGap => s.paceGap
  | .paceFrame => s.paceFrame
  | .result => s.result.setWidth 32
  | .einfo => s.einfo
  | .faults => s.faults.setWidth 32
  | .valid => (validRegister s).setWidth 32
  | .fold => s.fold.setWidth 32
  | .rblen => s.rblen
  | .pklen => s.pklen
  | .wflen => s.wflen
  | .nchunk => s.nchunk
  | .omark => Config.om.setWidth 32
  | .imark => Config.im.setWidth 32

/-- Whether a register is marked RW (R37). -/
def Reg.writable : Reg → Bool
  | .cfg _ | .cpkt _ | .w | .h | .pw | .ph | .np | .maxchunk | .paceGap | .paceFrame => true
  | .result | .einfo | .faults | .valid | .fold | .rblen | .pklen | .wflen | .nchunk | .omark | .imark => false

/-- A host write of a register: an RW register takes the low bits of the value, an RO register nothing (20_memory.md R62). -/
def writeReg (r : Reg) (v : Word) (s : State) : State :=
  match r with
  | .cfg i => { s with cfg := s.cfg.set i (v.setWidth 8) }
  | .cpkt i => { s with cpkt := s.cpkt.set i (v.setWidth 8) }
  | .w => { s with w := v.setWidth 16 }
  | .h => { s with h := v.setWidth 16 }
  | .pw => { s with pw := v.setWidth 16 }
  | .ph => { s with ph := v.setWidth 16 }
  | .np => { s with np := v.setWidth 16 }
  | .maxchunk => { s with maxchunk := v.setWidth 16 }
  | .paceGap => { s with paceGap := v }
  | .paceFrame => { s with paceFrame := v }
  | .result | .einfo | .faults | .valid | .fold | .rblen | .pklen | .wflen | .nchunk | .omark | .imark => s

/-! ### Memory cells. A cell with no defined value reads as the free value of this draw (R78, log 3). -/

/-- `MemRead(LUT, i)`. -/
def readLut (s : State) (i : Nat) : Half := (s.lut.read i).getD (Config.freeLut s.draws i)

/-- `MemRead(FB, i)`. -/
def readFb (s : State) (i : Nat) : Byte := (s.fb.read i).getD (Config.freeFb s.draws i)

/-- `MemRead(RB, i)`, by a command. -/
def readRb (s : State) (i : Nat) : Byte := (s.rb.read i).getD (Config.freeRb s.draws i)

/-- `MemRead(PKF, i)`, by a command. -/
def readPkf (s : State) (i : Nat) : Byte := (s.pkf.read i).getD (Config.freePkf s.draws i)

/-- `MemRead(WFR, i)`, by a command. -/
def readWfr (s : State) (i : Nat) : Byte := (s.wfr.read i).getD (Config.freeWfr s.draws i)

/-! ### Geometry (R151) -/

/-- `N = W * H`. -/
def pixelCount (s : State) : Nat := s.w.toNat * s.h.toNat

/-- `GX = W div PW`. -/
def gridColumns (s : State) : Nat := s.w.toNat / s.pw.toNat

/-- `GY = H div PH`. -/
def gridRows (s : State) : Nat := s.h.toNat / s.ph.toNat

/-- A panel's origin of its LUT entry: `x` in bits [7:0], `y` in bits [15:8] (10_state.md R30, 30_encoding.md R105). -/
def originOf (e : Half) : Nat × Nat := ((e.extractLsb' 0 8).toNat, (e.extractLsb' 8 8).toNat)

/-- The origins of LUT[0..NP-1], in LUT order; each entry is read once (20_memory.md R71, log 14). -/
def panelOrigins (s : State) : List (Nat × Nat) :=
  (List.range s.np.toNat).map fun i => originOf (readLut s i)

/-- The number of pixels PACK packs (41_pack_frame.md R130). -/
def packCount (src : Src) (s : State) : Nat :=
  match src with
  | .reorder => s.rblen.toNat
  | .canvas => pixelCount s

/-- `src(j)`, the `j`-th pixel PACK packs (R130). -/
def packPixel (src : Src) (s : State) (j : Nat) : Byte :=
  match src with
  | .reorder => readRb s j
  | .canvas => readFb s j

/-- The bytes of WFR[0..WFLEN-1] (43_split.md R171). -/
def wireBytes (s : State) : List Byte := (List.range s.wflen.toNat).map (readWfr s)

/-- The bytes of PKF[0..PKLEN-1] (41_pack_frame.md R140). -/
def packedBytes (s : State) : List Byte := (List.range s.pklen.toNat).map (readPkf s)

end Sys2Proof.Machine
end

