-- ==== Sys2Proof/Machine/Checksum.lean ====
section
/-! DEFINITION. The CFU: CFGBUILD and CFGCHECK (40_checksum.md). -/

namespace Sys2Proof.Machine

/-- `ufold(s)`, the unseeded fold (R111). -/
def ufold (bytes : List Byte) : Byte := bytes.foldl (fun c b => c ^^^ b) 0

/-- `sfold(s)`, the fold that starts at `SEED` (R111). -/
def sfold (bytes : List Byte) : Byte := bytes.foldl (fun c b => c ^^^ b) Config.seed

/-- The ConfigPacket of a NetworkConfig: the seeded fold, then the twelve octets (R110, 30_encoding.md R96). -/
def configPacket (cfg : Vector Byte 12) : Vector Byte 13 :=
  (#v[sfold cfg.toList] ++ cfg).cast (by decide)

/-- CFGBUILD (R110). -/
def execCfgbuild (s : State) : Host.Outcome State Fault Refusal :=
  .next (done { s with cpkt := configPacket s.cfg, fold := sfold s.cfg.toList })

/-- CFGCHECK (R113). -/
def execCfgcheck (s : State) : Host.Outcome State Fault Refusal :=
  let c := sfold s.cpkt.toList
  let t := { s with fold := c }
  .next (if c = 0 then done t else raise .chk (c.setWidth 32) t)

end Sys2Proof.Machine
end

