-- ==== Sys2Proof/Machine/PackFrame.lean ====
section
/-! DEFINITION. The GEU: PACK and FRAME (41_pack_frame.md). A destination buffer after an error holds no defined value (U4, log 11). -/

namespace Sys2Proof.Machine

/-- A pixel is on when its sample is greater than 0 (R131). -/
def isOn (sample : Byte) : Bool := decide (0 < sample.toNat)

/-- The mask byte of group `g` of `n` pixels (R130, R132): starting from 0, bit `k` is set when pixel `7g + k` exists and is on. -/
def groupMask (n : Nat) (pixel : Nat → Byte) (g : Nat) : Byte :=
  (List.range Config.group).foldl
    (fun b k =>
      let j := Config.group * g + k
      if j < n ∧ isOn (pixel j) = true then b ||| BitVec.twoPow 8 k else b) 0

/-- The mask bytes of `left` groups from group `g` on, or the first group whose byte has bit 7 set (R130, R134). -/
def encodeGroups (n : Nat) (pixel : Nat → Byte) (g : Nat) : Nat → Except Nat (List Byte)
  | 0 => .ok []
  | left + 1 =>
    let b := groupMask n pixel g
    if b.getLsbD 7 then .error g
    else
      match encodeGroups n pixel (g + 1) left with
      | .ok bs => .ok (b :: bs)
      | .error e => .error e

/-- The body of PACK once its checks have passed (R130). -/
def packPixels (n : Nat) (pixel : Nat → Byte) (s : State) : State :=
  let groups := ceilDiv n Config.group
  match encodeGroups n pixel 0 groups with
  | .error g => raise .enc (BitVec.ofNat 32 g) { s with pkf := [] }
  | .ok masks =>
    done { s with
      pkf := s.pkf.writeFrom 0 (Config.im :: masks)
      pklen := BitVec.ofNat 32 (1 + groups)
      pkv := true }

/-- PACK as a stage: from the state at its issue to the state at its end (R130). -/
def packStage (src : Src) (s : State) : State :=
  let t := startPack s
  match src with
  | .reorder =>
    if s.rbv then packPixels (packCount .reorder s) (packPixel .reorder s) (consumeRb t)
    else raise .seq 0 { t with pkf := [] }
  | .canvas =>
    if Config.fbDepth < packCount .canvas s then raise .param 1 { t with pkf := [] }
    else packPixels (packCount .canvas s) (packPixel .canvas s) t

/-- PACK (R130). -/
def execPack (src : Src) (s : State) : Host.Outcome State Fault Refusal := .next (packStage src s)

/-- FRAME as a stage (R140). -/
def frameStage (s : State) : State :=
  let t := startFrame s
  if s.pkv then
    done { consumePkf t with
      wfr := s.wfr.writeFrom 0 (Config.om :: packedBytes s)
      wflen := BitVec.ofNat 32 (s.pklen.toNat + 1)
      wfv := true }
  else raise .seq 1 { t with wfr := [] }

/-- FRAME (R140). -/
def execFrame (s : State) : Host.Outcome State Fault Refusal := .next (frameStage s)

end Sys2Proof.Machine
end

