-- ==== Sys2Proof/Machine/PanelMap.lean ====
section
/-! DEFINITION. The PMU: MAP (42_panel_map.md). RB after an error holds no defined value (U4, log 11). -/

namespace Sys2Proof.Machine

/-- The cause and LUT index of an E_LAYOUT as its detail word: [19:16] and [15:0] (R150). -/
def layoutInfo (cause index : Nat) : Word := BitVec.ofNat 32 (0x10000 * cause + index)

/-- The check of the origins from entry `i` on (R150, causes 4 and 5; R152, conditions 4 and 5). -/
def originError (gx gy : Nat) (seen : List (Nat × Nat)) (i : Nat) : List (Nat × Nat) → Option Word
  | [] => none
  | o :: rest =>
    if gx ≤ o.1 ∨ gy ≤ o.2 then some (layoutInfo 4 i)
    else if o ∈ seen then some (layoutInfo 5 i)
    else originError gx gy (o :: seen) (i + 1) rest

/-- The first check of MAP that fails, in the order of R150, with its detail word. -/
def mapError (s : State) : Option (ErrKind × Word) :=
  if Config.fbDepth < pixelCount s then some (.param, 1)
  else if Config.lutDepth < s.np.toNat then some (.param, 2)
  else if s.pw.toNat = 0 ∨ s.ph.toNat = 0 then some (.layout, layoutInfo 1 0)
  else if s.w.toNat % s.pw.toNat ≠ 0 ∨ s.h.toNat % s.ph.toNat ≠ 0 then some (.layout, layoutInfo 2 0)
  else if s.np.toNat ≠ gridColumns s * gridRows s then some (.layout, layoutInfo 3 0)
  else (originError (gridColumns s) (gridRows s) [] 0 (panelOrigins s)).map fun info => (.layout, info)

/-- The canvas index of row `r`, column `c` of the panel at origin `o` (R150, R153). -/
def canvasIndex (s : State) (o : Nat × Nat) (r c : Nat) : Nat :=
  (o.2 * s.ph.toNat + r) * s.w.toNat + (o.1 * s.pw.toNat + c)

/-- The samples of one panel, row-major within the panel (R150). -/
def panelSamples (s : State) (o : Nat × Nat) : List Byte :=
  (List.range s.ph.toNat).flatMap fun r =>
    (List.range s.pw.toNat).map fun c => readFb s (canvasIndex s o r c)

/-- The samples in the order in which MAP writes them to RB[0], RB[1], and so on (R150, R153). -/
def mapSamples (s : State) : List Byte := (panelOrigins s).flatMap (panelSamples s)

/-- MAP as a stage (R150). -/
def mapStage (s : State) : State :=
  let t := startMap s
  match mapError s with
  | some (e, info) => raise e info { t with rb := [] }
  | none =>
    done { t with
      rb := s.rb.writeFrom 0 (mapSamples s)
      rblen := BitVec.ofNat 32 (pixelCount s)
      rbv := true }

/-- MAP (R150). -/
def execMap (s : State) : Host.Outcome State Fault Refusal := .next (mapStage s)

end Sys2Proof.Machine
end

