-- ==== Sys2Proof/Machine/Split.lean ====
section
/-! DEFINITION. The CSU: SPLIT, and the pipeline command RUN (43_split.md). -/

namespace Sys2Proof.Machine

/-- Chunk `i` of a WireFrame: its bytes from `i*M` up to but not including `min((i+1)*M, L)` (R171). -/
def chunkAt (wire : List Byte) (m i : Nat) : List Byte := (wire.drop (i * m)).take m

/-- After the sink's answer to chunk `i` of `n`: the pacing deadline (R170, R174; 60_exceptions.md R214). -/
def setDeadline (pace : Word) (s : State) : State := { s with txReadyAt := s.now + pace.toNat }

/-- The emission loop of SPLIT with `left` of the `n` chunks to go, to the end of the command (R170). A wait for a deadline that the
clock never passes does not end (60_exceptions.md R216 (b)); the deadline met at the start of a SPLIT is never ahead (R174). -/
def sendChunks (wire : List Byte) (m n : Nat) : Nat → State → Host.Outcome State Fault Refusal
  | 0, s => .next (done (waitUntil s.txReadyAt s))
  | left + 1, s =>
    let i := n - (left + 1)
    match txEmit (chunkAt wire m i) (decide (i = 0)) (decide (left = 0)) (waitUntil s.txReadyAt s) with
    | .silent => .fault .hang
    | .abandoned t => .next t
    | .answered .fail clockMoves t =>
      let u := setDeadline t.paceFrame t
      if waitEnds clockMoves u then .next (raise .xport (BitVec.ofNat 32 i) (waitUntil u.txReadyAt u))
      else .fault .hang
    | .answered .ok clockMoves t =>
      let u := setDeadline (if left = 0 then t.paceFrame else t.paceGap) { t with nchunk := BitVec.ofNat 32 (i + 1) }
      if waitEnds clockMoves u then sendChunks wire m n left u else .fault .hang

/-- SPLIT as a stage (R170). -/
def splitStage (s : State) : Host.Outcome State Fault Refusal :=
  if s.wfv = false then .next (raise .seq 2 s)
  else if s.maxchunk.toNat = 0 then .next (raise .param 3 s)
  else
    let m := s.maxchunk.toNat
    let n := ceilDiv s.wflen.toNat m
    sendChunks (wireBytes s) m n n (consumeWfr s)

/-- SPLIT (R170). -/
def execSplit (s : State) : Host.Outcome State Fault Refusal := splitStage s

/-- The next stage of RUN, unless the one before raised an error (R180). -/
def thenStage (s : State) (next : State → Host.Outcome State Fault Refusal) : Host.Outcome State Fault Refusal :=
  if s.result = 0 then next s else .next s

/-- RUN (R180). -/
def execRun (src : Src) (s : State) : Host.Outcome State Fault Refusal :=
  let rest (t : State) : Host.Outcome State Fault Refusal :=
    thenStage (packStage src t) fun u => thenStage (frameStage u) splitStage
  match src with
  | .reorder => thenStage (mapStage s) rest
  | .canvas => rest s

end Sys2Proof.Machine
end

