-- ==== Sys2Proof/Machine/Dispatch.lean ====
section
/-! DEFINITION. One arm per command. -/

namespace Sys2Proof.Machine

/-- A command from its issue to its response (00_scope.md R3, 20_memory.md R73). -/
def exec (i : Instr) (s : State) : Host.Outcome State Fault Refusal :=
  match i with
  | .cfgbuild => Sys2Proof.Machine.execCfgbuild s
  | .cfgcheck => Sys2Proof.Machine.execCfgcheck s
  | .map => Sys2Proof.Machine.execMap s
  | .pack src => Sys2Proof.Machine.execPack src s
  | .frame => Sys2Proof.Machine.execFrame s
  | .split => Sys2Proof.Machine.execSplit s
  | .run src => Sys2Proof.Machine.execRun src s

end Sys2Proof.Machine
end

