-- ==== Sys2Proof/Machine/HostPort.lean ====
section
/-! DEFINITION. The host port: the five transactions (20_memory.md R61) and the reset input. An access off the interface has the
effect the spec gives the hardware, and is marked (log 9, 10). -/

namespace Sys2Proof.Machine

/-- Marks the run when a condition of the interface does not hold (70_reset_and_hazards.md R252, log 9). -/
def markUnless (ok : Bool) (s : State) : State := { s with offInterface := s.offInterface || !ok }

/-- The end of a transaction that is no command. -/
def respond (r : Response) (s : State) : State := { s with response := r }

/-- `RegWrite(n, v)` (R62). -/
def hostRegWrite (n : Byte) (v : Word) (s : State) : State :=
  match regOfNumber n with
  | some r => respond .nothing (markUnless r.writable (writeReg r v s))
  | none => respond .nothing (markUnless false s)

/-- `RegRead(n)` (R63). -/
def hostRegRead (n : Byte) (s : State) : State :=
  match regOfNumber n with
  | some r => respond (.value (readReg r s)) s
  | none => respond (.value 0) (markUnless false s)

/-- `MemWrite(S, i, v)` (R65): below the capacity, FB takes `v[7:0]` and LUT `v[15:0]`; anything else is ignored. -/
def hostMemWrite (sp : Space) (i : Nat) (v : Word) (s : State) : State :=
  match sp with
  | .lut =>
    if i < Config.lutDepth then respond .nothing { s with lut := s.lut.write i (v.setWidth 16) }
    else respond .nothing (markUnless false s)
  | .fb =>
    if i < Config.fbDepth then
      respond .nothing (markUnless (decide (v.toNat ≤ Config.sampleMax)) { s with fb := s.fb.write i (v.setWidth 8) })
    else respond .nothing (markUnless false s)
  | .rb | .pkf | .wfr => respond .nothing (markUnless false s)

/-- The host's read of a cell of a buffer: its value when its flag is set and it is below the length, else a free value (R78). -/
def bufferCell (valid : Bool) (len : Word) (cell free : Byte) (i : Nat) : Byte :=
  if valid = true ∧ i < len.toNat then cell else free

/-- Whether that cell has a defined value (R78). -/
def bufferDefined (valid : Bool) (len : Word) (i : Nat) : Bool := valid && decide (i < len.toNat)

/-- The number of elements of a space (R60). -/
def capacity : Space → Nat
  | .lut => Config.lutDepth
  | .fb => Config.fbDepth
  | .rb => Config.fbDepth
  | .pkf => Config.pkCap
  | .wfr => Config.wfCap

/-- The value of a cell below the capacity, zero-extended (R65, R78). -/
def hostCell (sp : Space) (i : Nat) (s : State) : Word :=
  match sp with
  | .lut => (readLut s i).setWidth 32
  | .fb => (readFb s i).setWidth 32
  | .rb => (bufferCell s.rbv s.rblen (readRb s i) (Config.freeRb s.draws i) i).setWidth 32
  | .pkf => (bufferCell s.pkv s.pklen (readPkf s i) (Config.freePkf s.draws i) i).setWidth 32
  | .wfr => (bufferCell s.wfv s.wflen (readWfr s i) (Config.freeWfr s.draws i) i).setWidth 32

/-- Whether a host that keeps to the interface may read the cell (R245). -/
def hostMayRead (sp : Space) (i : Nat) (s : State) : Bool :=
  match sp with
  | .lut | .fb => true
  | .rb => bufferDefined s.rbv s.rblen i
  | .pkf => bufferDefined s.pkv s.pklen i
  | .wfr => bufferDefined s.wfv s.wflen i

/-- `MemRead(S, i)` (R65, R78): 0 at or past the capacity. The next read draws afresh (U1). -/
def hostMemRead (sp : Space) (i : Nat) (s : State) : State :=
  if i < capacity sp then
    respond (.value (hostCell sp i s)) (markUnless (hostMayRead sp i s) { s with draws := s.draws + 1 })
  else respond (.value 0) (markUnless false s)

/-- `Cmd(w)`: the command of a legal word, E_CMD for an illegal one (30_encoding.md R93, 60_exceptions.md R205). -/
def hostCmd (w : Byte) (s : State) : Host.Outcome State Fault Refusal :=
  match decode w with
  | .ok i => exec i s
  | .error _ => .next (raise .cmd (w.setWidth 32) s)

/-- One transaction, or reset (R61, R230). -/
def hostAction (a : HostAction) (s : State) : Host.Outcome State Fault Refusal :=
  match a with
  | .regWrite n v => .next (hostRegWrite n v s)
  | .regRead n => .next (hostRegRead n s)
  | .memWrite sp i v => .next (hostMemWrite sp i v s)
  | .memRead sp i => .next (hostMemRead sp i s)
  | .cmd w => hostCmd w s
  | .reset => .next (applyReset s)

/-- One event of the script: the time before it, the transaction, the time it takes beyond the WFU's own waits (log 7). -/
def runEvent (ev : HostEvent) (s : State) : Host.Outcome State Fault Refusal :=
  mapNext (elapse ev.busy) (hostAction ev.action (elapse ev.after s))

/-- The word `Cmd` carries for a command of the table (30_encoding.md R90). -/
def cmdEvent (nbits w : Nat) : HostEvent := ⟨0, .cmd (BitVec.ofNat 8 (w % 2 ^ nbits)), 0⟩

end Sys2Proof.Machine
end

