-- ==== Sys2Proof/Machine/Step.lean ====
section
/-! DEFINITION. One step: the next event of the host's script. -/

namespace Sys2Proof.Machine

/-- One step of the WFU (00_scope.md R3): it takes the host's next transaction (10_state.md R34). A host that issues none leaves the
WFU idle (70_reset_and_hazards.md R252, log 5). -/
def step (s : State) : Host.Outcome State Fault Refusal :=
  match s.script with
  | [] => .next s
  | ev :: rest => runEvent ev { s with script := rest }

/-- `s` with the transaction `Cmd(w)` next on the host port (log 5). -/
def State.withFetchWord (s : State) (nbits w : Nat) : State := { s with script := cmdEvent nbits w :: s.script }

end Sys2Proof.Machine
end

