-- ==== Sys2Proof/Safety.lean ====
section
/-! DEFINITION. What counts as a good state and a good environment, in the terms the statements use. -/

namespace Sys2Proof.Machine

/-- A buffer holds `len` bytes whose first `marks.length` are `marks` and whose others are mask bytes: bit 7 is 0
(30_encoding.md R97, R98, R100). -/
def HoldsFrame (m : Memory 8) (len : Nat) (marks : List Byte) : Prop :=
  marks.length ≤ len ∧ (∀ i, (hi : i < marks.length) → m.read i = some marks[i]) ∧
    ∀ i, marks.length ≤ i → i < len → ∃ b, m.read i = some b ∧ b.getLsbD 7 = false

/-- The state invariant of the WFU: every state a run reaches meets it. -/
structure StateInv (s : State) : Prop where
  /-- The memories are in canonical form and within their capacities (20_memory.md R60). -/
  lutForm : s.lut.wf ∧ s.lut.below Config.lutDepth
  fbForm : s.fb.wf ∧ s.fb.below Config.fbDepth
  rbForm : s.rb.wf ∧ s.rb.below Config.fbDepth
  pkfForm : s.pkf.wf ∧ s.pkf.below Config.pkCap
  wfrForm : s.wfr.wf ∧ s.wfr.below Config.wfCap
  /-- TX_READY_AT is not in the future between transactions (43_split.md R174). -/
  deadline : s.txReadyAt ≤ s.now
  /-- A record's times are in order and past (10_state.md R36). -/
  logTimes : ∀ r ∈ s.txlog, r.tStart ≤ r.tEnd ∧ r.tEnd ≤ s.now
  /-- Codes 8 to 15 are never produced (60_exceptions.md R200). -/
  codeRange : s.result.toNat ≤ 7
  /-- EINFO is 0 when RESULT is 0 (10_state.md R26). -/
  okInfo : s.result = 0 → s.einfo = 0
  /-- FAULTS bit 0 is always 0 (R26). -/
  faultsBit0 : s.faults.getLsbD 0 = false
  /-- The last command's error is on record (R26). -/
  faultOnRecord : s.result ≠ 0 → s.faults.getLsbD s.result.toNat = true
  /-- RBV: RB[0..RBLEN-1] holds a remapped framebuffer (R25). -/
  rbHolds : s.rbv = true → s.rblen.toNat ≤ Config.fbDepth ∧ ∀ i < s.rblen.toNat, (s.rb.read i).isSome = true
  /-- PKV: PKF[0..PKLEN-1] holds a PackedFrame (R25, R29, R33). -/
  pkfHolds : s.pkv = true → ∃ n ≤ Config.fbDepth, s.pklen.toNat = 1 + ceilDiv n 7 ∧
    HoldsFrame s.pkf s.pklen.toNat [Config.im]
  /-- WFV: WFR[0..WFLEN-1] holds a WireFrame (R25, R29, R33). -/
  wfrHolds : s.wfv = true → ∃ n ≤ Config.fbDepth, s.wflen.toNat = 2 + ceilDiv n 7 ∧
    HoldsFrame s.wfr s.wflen.toNat [Config.om, Config.im]

/-- A sink event with its times taken out. -/
def SinkEvent.eraseTimes : SinkEvent → SinkEvent
  | .answers a _ _ => .answers a 0 0
  | .silent => .silent
  | .stalls a _ _ => .stalls a 0 0
  | .reset _ _ seen => .reset 0 0 seen

/-- The state with every time in it set to 0: what is left is what is functional (43_split.md R172). -/
def eraseTimes (s : State) : State :=
  { s with
    now := 0
    txReadyAt := 0
    txlog := s.txlog.map fun r => { r with tStart := 0, tEnd := 0 }
    sink := s.sink.map SinkEvent.eraseTimes
    script := s.script.map fun e => { e with after := 0, busy := 0 } }

/-- The sink never falls silent: the first fairness assumption of 60_exceptions.md R216, for the chunks the sink script covers. Past its
end the sink is taken to answer (DESIGN CHOICE, log 6). -/
def SinkSpeaks (s : State) : Prop := ∀ e ∈ s.sink, e ≠ .silent

/-- The clock passes every deadline: the second fairness assumption of R216, for the chunks the sink script covers. Past its end the clock
is taken to pass every deadline (DESIGN CHOICE, log 7). -/
def ClockMoves (s : State) : Prop := ∀ e ∈ s.sink, ∀ a lag took, e ≠ .stalls a lag took

/-- What the environment does with a hand-over is an answer `a` of the sink, whatever the clock does then. -/
def SinkEvent.IsAnswer (a : Answer) (e : SinkEvent) : Prop := ∃ lag took, e = .answers a lag took ∨ e = .stalls a lag took

/-- The sink answers every chunk: it is never silent, and no reset cuts a hand-over short. -/
def SinkAnswers (s : State) : Prop := ∀ e ∈ s.sink, ∃ a, e.IsAnswer a

/-- The sink answers `ok` to each of the next `n` chunks, and the clock passes the deadline after each. -/
def SinkAccepts (n : Nat) (s : State) : Prop :=
  ∀ k < n, ∃ lag took, s.sink[k]? = some (.answers .ok lag took)

/-- A layout MAP accepts: the sizes fit (42_panel_map.md R150), and the five conditions of R152 hold. -/
structure GoodLayout (s : State) : Prop where
  canvasFits : pixelCount s ≤ Config.fbDepth
  tableFits : s.np.toNat ≤ Config.lutDepth
  /-- Condition 1. -/
  panelNonzero : 1 ≤ s.pw.toNat ∧ 1 ≤ s.ph.toNat
  /-- Condition 2. -/
  wholePanels : s.w.toNat % s.pw.toNat = 0 ∧ s.h.toNat % s.ph.toNat = 0
  /-- Condition 3. -/
  panelCount : s.np.toNat = (s.w.toNat / s.pw.toNat) * (s.h.toNat / s.ph.toNat)
  /-- Condition 4. -/
  inGrid : ∀ i < s.np.toNat, (originOf (readLut s i)).1 < s.w.toNat / s.pw.toNat ∧
    (originOf (readLut s i)).2 < s.h.toNat / s.ph.toNat
  /-- Condition 5. -/
  distinct : ∀ i j, i < j → j < s.np.toNat → originOf (readLut s i) ≠ originOf (readLut s j)

/-- The canvas index of the sample MAP puts in RB[j]: `j = i*PN + r*PW + c` (42_panel_map.md R153). -/
def mapSource (s : State) (j : Nat) : Nat :=
  let o := originOf (readLut s (j / (s.pw.toNat * s.ph.toNat)))
  let k := j % (s.pw.toNat * s.ph.toNat)
  (o.2 * s.ph.toNat + k / s.pw.toNat) * s.w.toNat + (o.1 * s.pw.toNat + k % s.pw.toNat)

/-- The `j`-th pixel of a frame in transmission order, from the canvas in FB (30_encoding.md R92). -/
def wirePixel (src : Src) (s : State) (j : Nat) : Byte :=
  match src with
  | .reorder => readFb s (mapSource s j)
  | .canvas => readFb s j

/-- A byte is the mask byte of group `g` of `n` pixels (30_encoding.md R97). -/
def IsMaskByte (n : Nat) (pixel : Nat → Byte) (g : Nat) (b : Byte) : Prop :=
  b.getLsbD 7 = false ∧ ∀ k < 7, b.getLsbD k = true ↔ 7 * g + k < n ∧ pixel (7 * g + k) ≠ 0

/-- The value `RegRead(n)` returns (20_memory.md R63). -/
def portValue (n : Byte) (s : State) : Word :=
  match regOfNumber n with
  | some r => readReg r s
  | none => 0

/-- The width in bits of an RW register, by number; 0 for an RO register and for a reserved number (10_state.md R37). -/
def rwWidth (n : Byte) : Nat :=
  if n.toNat ≤ 0x0B then 8
  else if 0x10 ≤ n.toNat ∧ n.toNat ≤ 0x1C then 8
  else if 0x20 ≤ n.toNat ∧ n.toNat ≤ 0x25 then 16
  else if 0x26 ≤ n.toNat ∧ n.toNat ≤ 0x27 then 32
  else 0

/-- The values of all registers are their reset values (10_state.md R38): 0 for all but OMARK (0x3E) and IMARK (0x3F). -/
def RegistersReset (s : State) : Prop :=
  ∀ n : Byte, portValue n s =
    if n = 0x3E then Config.om.setWidth 32 else if n = 0x3F then Config.im.setWidth 32 else 0

/-- No memory cell has a defined value (70_reset_and_hazards.md R232, log 3). -/
def MemoriesUndefined (s : State) : Prop :=
  ∀ i, s.lut.read i = none ∧ s.fb.read i = none ∧ s.rb.read i = none ∧ s.pkf.read i = none ∧ s.wfr.read i = none

end Sys2Proof.Machine
end

