-- ==== Sys2Proof/Certificates/Slice0/Obligations.lean ====
section
/-! DEFINITION. The statements for the provers. Each docstring names the rule of spec/ it formalises. In every one of them a frame is
written as an equation `t = { s with … }`: every field of the state that is not named after `with` is unchanged, all of memory included.
`draws` is the model's own counter of free values (log 4); a statement that lets it change says nothing of its value. -/

open Sys2Proof Sys2Proof.Machine

/-! ### Parameters and the command word -/

/-- R7, R8: the constraints on the open parameters. -/
def Obligations.ParametersMeetTheirConstraints : Prop :=
  Config.om ≠ Config.im ∧ 1 ≤ Config.fbDepth ∧ 1 ≤ Config.lutDepth ∧ Config.lutDepth ≤ 65535 ∧
    Config.pkCap = 1 + ceilDiv Config.fbDepth 7 ∧ Config.wfCap = 2 + ceilDiv Config.fbDepth 7 ∧ Config.wfCap < 2 ^ 32

/-- R91, R93: the nine legal words, and an illegal word of each kind. -/
def Obligations.CommandWordsDecodeToTheirCommands : Prop :=
  decode 0x01 = .ok .cfgbuild ∧ decode 0x02 = .ok .cfgcheck ∧ decode 0x03 = .ok .map ∧
  decode 0x04 = .ok (.pack .reorder) ∧ decode 0x14 = .ok (.pack .canvas) ∧ decode 0x05 = .ok .frame ∧
  decode 0x06 = .ok .split ∧ decode 0x07 = .ok (.run .reorder) ∧ decode 0x17 = .ok (.run .canvas) ∧
  decode 0x00 = .error .reservedOp ∧ decode 0x13 = .error .noSrcOperand ∧ decode 0x24 = .error .reservedBits

/-- R91: a word decodes to a command exactly when it is that command's word. -/
def Obligations.DecodeAndEncodeAgree : Prop :=
  ∀ (w : Byte) (i : Instr), decode w = .ok i ↔ encode i = w

/-- R91: the command table: "A word `w` selects the row whose `w and Mask = Match`", row by row. -/
def Obligations.WordSelectsTheRowOfItsMaskAndMatch : Prop :=
  ∀ w : Byte,
    (w &&& 0xFF = 0x01 ↔ decode w = .ok .cfgbuild) ∧ (w &&& 0xFF = 0x02 ↔ decode w = .ok .cfgcheck) ∧
    (w &&& 0xFF = 0x03 ↔ decode w = .ok .map) ∧
    (w &&& 0xEF = 0x04 ↔ decode w = .ok (.pack .reorder) ∨ decode w = .ok (.pack .canvas)) ∧
    (w &&& 0xFF = 0x05 ↔ decode w = .ok .frame) ∧ (w &&& 0xFF = 0x06 ↔ decode w = .ok .split) ∧
    (w &&& 0xEF = 0x07 ↔ decode w = .ok (.run .reorder) ∨ decode w = .ok (.run .canvas))

/-- R93, R205: every word outside the nine is reported by E_CMD and changes nothing else. -/
def Obligations.IllegalWordOnlyReportsItself : Prop :=
  ∀ (s : State) (after busy : Nat) (w : Byte) (rest : List HostEvent),
    s.script = ⟨after, .cmd w, busy⟩ :: rest →
    w ∉ [0x01, 0x02, 0x03, 0x04, 0x14, 0x05, 0x06, 0x07, 0x17] →
    step s = .next { s with
      result := 6
      einfo := BitVec.ofNat 32 w.toNat
      faults := s.faults ||| 0x40
      response := .result 6
      script := rest
      now := s.now + after + busy }

/-- R3, R61: a step whose transaction is a legal command runs exactly that command, between the environment's time before it and its
time after it; and so does `withFetchWord`'s step, with no time around it. -/
def Obligations.StepRunsTheDecodedCommand : Prop :=
  (∀ (s : State) (after busy : Nat) (w : Byte) (rest : List HostEvent) (i : Instr),
    s.script = ⟨after, .cmd w, busy⟩ :: rest → decode w = .ok i →
    step s = match exec i { s with script := rest, now := s.now + after } with
      | .next t => .next { t with now := t.now + busy }
      | .fault f => .fault f
      | .refused r => .refused r) ∧
  ∀ (s : State) (i : Instr), step (s.withFetchWord 8 (encode i).toNat) = exec i s

/-! ### Reset -/

/-- R230: reset is one step from any state. (That no memory cell has a defined value afterwards is the model's form of R232, log 3.) -/
def Obligations.ResetEventResets : Prop :=
  ∀ (s : State) (after busy : Nat) (rest : List HostEvent),
    s.script = ⟨after, .reset, busy⟩ :: rest →
    ∃ t, step s = .next t ∧ RegistersReset t ∧ t.rbv = false ∧ t.pkv = false ∧ t.wfv = false ∧
      t.txReadyAt = s.now + after ∧ t.txlog = [] ∧ MemoriesUndefined t ∧ t.script = rest ∧ t.sink = s.sink

/-- R38: the state after reset. -/
def Obligations.ResetStateHoldsTheResetValues : Prop :=
  RegistersReset State.reset ∧ State.reset.rbv = false ∧ State.reset.pkv = false ∧ State.reset.wfv = false ∧
    State.reset.txReadyAt = State.reset.now ∧ State.reset.txlog = [] ∧ MemoriesUndefined State.reset

/-- The state after reset meets the invariant. -/
def Obligations.ResetStateMeetsTheInvariant : Prop := StateInv State.reset

/-! ### The host port -/

/-- R37: each register number reads the register the map gives it; every other number reads 0. -/
def Obligations.RegisterMapNamesEachRegister : Prop :=
  ∀ s : State,
    (∀ i, (h : i < 12) → portValue (BitVec.ofNat 8 i) s = s.cfg[i].setWidth 32) ∧
    (∀ i, (h : i < 13) → portValue (BitVec.ofNat 8 (0x10 + i)) s = s.cpkt[i].setWidth 32) ∧
    portValue 0x20 s = s.w.setWidth 32 ∧ portValue 0x21 s = s.h.setWidth 32 ∧ portValue 0x22 s = s.pw.setWidth 32 ∧
    portValue 0x23 s = s.ph.setWidth 32 ∧ portValue 0x24 s = s.np.setWidth 32 ∧
    portValue 0x25 s = s.maxchunk.setWidth 32 ∧ portValue 0x26 s = s.paceGap ∧ portValue 0x27 s = s.paceFrame ∧
    portValue 0x30 s = s.result.setWidth 32 ∧ portValue 0x31 s = s.einfo ∧ portValue 0x32 s = s.faults.setWidth 32 ∧
    portValue 0x33 s =
      (if s.wfv then 4 else 0) + (if s.pkv then 2 else 0) + (if s.rbv then 1 else 0) ∧
    portValue 0x34 s = s.fold.setWidth 32 ∧ portValue 0x35 s = s.rblen ∧ portValue 0x36 s = s.pklen ∧
    portValue 0x37 s = s.wflen ∧ portValue 0x38 s = s.nchunk ∧ portValue 0x3E s = Config.om.setWidth 32 ∧
    portValue 0x3F s = Config.im.setWidth 32 ∧
    ∀ n : Byte, n ∈ [0x0C, 0x0D, 0x0E, 0x0F, 0x1D, 0x1E, 0x1F, 0x39, 0x3A, 0x3B, 0x3C, 0x3D] ∨
      (0x28 ≤ n.toNat ∧ n.toNat < 0x30) ∨ 0x40 ≤ n.toNat → portValue n s = 0

/-- R63: a register read returns the register's value and has no side effect; a second read gives the same. (The mark of a reserved
number is the model's, log 9.) -/
def Obligations.RegisterReadHasNoSideEffect : Prop :=
  ∀ (s : State) (after busy : Nat) (n : Byte) (rest : List HostEvent),
    s.script = ⟨after, .regRead n, busy⟩ :: rest →
    ∃ t, step s = .next t ∧ portValue n t = portValue n s ∧ t = { s with
      response := .value (portValue n s)
      script := rest
      now := s.now + after + busy
      offInterface := t.offInterface }

/-- R62: a register write reaches the one RW register it names, which takes the low bits of the value, and nothing else; a write to an RO
register or a reserved number changes no register. -/
def Obligations.RegisterWriteReachesOnlyItsRegister : Prop :=
  ∀ (s : State) (after busy : Nat) (n : Byte) (v : Word) (rest : List HostEvent),
    s.script = ⟨after, .regWrite n v, busy⟩ :: rest →
    ∃ t, step s = .next t ∧
      (∀ m, portValue m t =
        if m = n ∧ rwWidth n ≠ 0 then BitVec.ofNat 32 (v.toNat % 2 ^ rwWidth n) else portValue m s) ∧
      t = { s with
        cfg := t.cfg
        cpkt := t.cpkt
        w := t.w
        h := t.h
        pw := t.pw
        ph := t.ph
        np := t.np
        maxchunk := t.maxchunk
        paceGap := t.paceGap
        paceFrame := t.paceFrame
        response := .nothing
        script := rest
        now := s.now + after + busy
        offInterface := t.offInterface }

/-- R65: a host write of FB or LUT below the capacity stores one element. -/
def Obligations.MemoryWriteStoresOneElement : Prop :=
  ∀ (s : State) (after busy : Nat) (i : Nat) (v : Word) (rest : List HostEvent),
    (s.script = ⟨after, .memWrite .fb i v, busy⟩ :: rest → i < Config.fbDepth →
      ∃ t, step s = .next t ∧ (∀ j, t.fb.read j = if j = i then some (BitVec.ofNat 8 v.toNat) else s.fb.read j) ∧
        t = { s with
          fb := t.fb
          response := .nothing
          script := rest
          now := s.now + after + busy
          offInterface := t.offInterface }) ∧
    (s.script = ⟨after, .memWrite .lut i v, busy⟩ :: rest → i < Config.lutDepth →
      ∃ t, step s = .next t ∧ (∀ j, t.lut.read j = if j = i then some (BitVec.ofNat 16 v.toNat) else s.lut.read j) ∧
        t = { s with
          lut := t.lut
          response := .nothing
          script := rest
          now := s.now + after + busy
          offInterface := t.offInterface })

/-- R105, R30: a LUT entry written as `256 * y + x` is the origin `(x, y)`. -/
def Obligations.LutEntryHoldsItsOrigin : Prop :=
  ∀ x y : Nat, x < 256 → y < 256 → originOf (BitVec.ofNat 16 (256 * y + x)) = (x, y)

/-- R65: a host read below the capacity returns the element, where it has a defined value, and changes no register, flag or memory. -/
def Obligations.MemoryReadReturnsTheElement : Prop :=
  ∀ (s : State) (after busy : Nat) (sp : Space) (i : Nat) (rest : List HostEvent),
    s.script = ⟨after, .memRead sp i, busy⟩ :: rest → i < capacity sp →
    ∃ t v, step s = .next t ∧
      (∀ e, sp = .lut → s.lut.read i = some e → v = e.setWidth 32) ∧
      (∀ b, sp = .fb → s.fb.read i = some b → v = b.setWidth 32) ∧
      (∀ b, sp = .rb → s.rbv = true → i < s.rblen.toNat → s.rb.read i = some b → v = b.setWidth 32) ∧
      (∀ b, sp = .pkf → s.pkv = true → i < s.pklen.toNat → s.pkf.read i = some b → v = b.setWidth 32) ∧
      (∀ b, sp = .wfr → s.wfv = true → i < s.wflen.toNat → s.wfr.read i = some b → v = b.setWidth 32) ∧
      t = { s with
        response := .value v
        script := rest
        now := s.now + after + busy
        draws := t.draws
        offInterface := t.offInterface }

/-- R65: past the capacity, and for a write to RB, PKF or WFR, "the hardware ignores the write and returns 0 for the read". -/
def Obligations.AccessOutsideTheInterfaceIsIgnored : Prop :=
  ∀ (s : State) (after busy : Nat) (sp : Space) (i : Nat) (v : Word) (rest : List HostEvent),
    (s.script = ⟨after, .memRead sp i, busy⟩ :: rest → capacity sp ≤ i →
      step s = .next { s with
        response := .value 0
        script := rest
        now := s.now + after + busy
        offInterface := true }) ∧
    (s.script = ⟨after, .memWrite sp i v, busy⟩ :: rest →
      capacity sp ≤ i ∨ sp = .rb ∨ sp = .pkf ∨ sp = .wfr →
      step s = .next { s with
        response := .nothing
        script := rest
        now := s.now + after + busy
        offInterface := true })

/-! ### CFU -/

/-- R110: CFGBUILD. -/
def Obligations.CfgbuildBuildsTheConfigPacket : Prop :=
  ∀ s : State, ∃ t, exec .cfgbuild s = .next t ∧
    t.cpkt[0] = 0xAA ^^^ s.cfg[0] ^^^ s.cfg[1] ^^^ s.cfg[2] ^^^ s.cfg[3] ^^^ s.cfg[4] ^^^ s.cfg[5] ^^^ s.cfg[6] ^^^
      s.cfg[7] ^^^ s.cfg[8] ^^^ s.cfg[9] ^^^ s.cfg[10] ^^^ s.cfg[11] ∧
    (∀ i, (h : i < 12) → t.cpkt[i + 1] = s.cfg[i]) ∧
    t = { s with
      cpkt := t.cpkt
      fold := t.cpkt[0]
      result := 0
      einfo := 0
      response := .result 0 }

/-- R113: CFGCHECK. -/
def Obligations.CfgcheckFoldsThePacket : Prop :=
  ∀ (s : State) (c : Byte),
    c = 0xAA ^^^ s.cpkt[0] ^^^ s.cpkt[1] ^^^ s.cpkt[2] ^^^ s.cpkt[3] ^^^ s.cpkt[4] ^^^ s.cpkt[5] ^^^ s.cpkt[6] ^^^
      s.cpkt[7] ^^^ s.cpkt[8] ^^^ s.cpkt[9] ^^^ s.cpkt[10] ^^^ s.cpkt[11] ^^^ s.cpkt[12] →
    (c = 0 → exec .cfgcheck s = .next { s with fold := 0, result := 0, einfo := 0, response := .result 0 }) ∧
    (c ≠ 0 → exec .cfgcheck s = .next { s with
      fold := c
      result := 7
      einfo := BitVec.ofNat 32 c.toNat
      faults := s.faults ||| 0x80
      response := .result 7 })

/-- R114: a packet built by CFGBUILD passes CFGCHECK; and a packet passes exactly when its byte 0 is the seeded fold of the others. -/
def Obligations.BuiltPacketVerifies : Prop :=
  (∀ s t u : State, exec .cfgbuild s = .next t → exec .cfgcheck t = .next u →
    u.fold = 0 ∧ u.result = 0 ∧ u.cpkt = t.cpkt) ∧
  ∀ s u : State, exec .cfgcheck s = .next u → (u.result = 0 ↔ s.cpkt[0] = sfold s.cpkt.toList.tail)

/-- R116: "The three tests `sfold(all 13) = 0`, `ufold(all 13) = 0xAA` and `byte 0 = sfold(bytes 1..12)` accept exactly the same packets." -/
def Obligations.ThreeVerifyingTestsAgree : Prop :=
  ∀ p : Vector Byte 13,
    (sfold p.toList = 0 ↔ ufold p.toList = 0xAA) ∧ (ufold p.toList = 0xAA ↔ p[0] = sfold p.toList.tail)

/-- R117: a change of one byte of a verifying packet is detected, with the difference in EINFO; the same change of two bytes, and a
permutation of the bytes (a swap of two among them), are not. -/
def Obligations.ChecksumDetectsOneChangedByte : Prop :=
  ∀ (s u : State) (i j : Fin 13) (b d : Byte) (q : Vector Byte 13), exec .cfgcheck s = .next u → u.result = 0 →
    (b ≠ s.cpkt[i] → ∃ v, exec .cfgcheck { s with cpkt := s.cpkt.set i b } = .next v ∧ v.result = 7 ∧
      v.einfo = BitVec.ofNat 32 (s.cpkt[i] ^^^ b).toNat) ∧
    (i ≠ j → ∃ v, v.result = 0 ∧
      exec .cfgcheck { s with cpkt := (s.cpkt.set i (s.cpkt[i] ^^^ d)).set j (s.cpkt[j] ^^^ d) } = .next v) ∧
    (q.toList.Perm s.cpkt.toList → ∃ v, exec .cfgcheck { s with cpkt := q } = .next v ∧ v.result = 0)

/-! ### GEU -/

/-- R97, R133 with R130: PACK on an accepted source. -/
def Obligations.PackWritesMarkerAndMaskBytes : Prop :=
  ∀ (src : Src) (s : State) (n : Nat),
    (src = .reorder → s.rbv = true ∧ n = s.rblen.toNat) →
    (src = .canvas → n = s.w.toNat * s.h.toNat ∧ n ≤ Config.fbDepth) →
    ∃ t, exec (.pack src) s = .next t ∧
      t.pklen.toNat = 1 + ceilDiv n 7 ∧
      (n ≤ Config.fbDepth → t.pklen.toNat ≤ Config.pkCap) ∧
      t.pkf.read 0 = some Config.im ∧
      (∀ g < ceilDiv n 7, ∃ b, t.pkf.read (1 + g) = some b ∧ IsMaskByte n (packPixel src s) g b) ∧
      (∀ i, t.pklen.toNat ≤ i → t.pkf.read i = s.pkf.read i) ∧
      t = { s with
        rbv := if src = .reorder then false else s.rbv
        pkf := t.pkf
        pklen := t.pklen
        pkv := true
        result := 0
        einfo := 0
        response := .result 0
        draws := t.draws }

/-- R130: PACK without its source, and on a canvas too large. PKV is 0 afterwards, PKLEN keeps its value, PKF is unspecified. -/
def Obligations.PackRefusesABadSource : Prop :=
  ∀ s : State,
    (s.rbv = false → ∃ t, exec (.pack .reorder) s = .next t ∧ t = { s with
      pkv := false
      pkf := t.pkf
      result := 4
      einfo := 0
      faults := s.faults ||| 0x10
      response := .result 4
      draws := t.draws }) ∧
    (Config.fbDepth < s.w.toNat * s.h.toNat → ∃ t, exec (.pack .canvas) s = .next t ∧ t = { s with
      pkv := false
      pkf := t.pkf
      result := 5
      einfo := 1
      faults := s.faults ||| 0x20
      response := .result 5
      draws := t.draws })

/-- R135: the laws of the encoding: a PackedFrame is `IM` and ceil(n/7) mask bytes; exactly the first `k` pixels of a group on, all pixels
off, all pixels on, and the document's all-on case of 32 by 16 pixels. -/
def Obligations.MaskBytesOfRegularFrames : Prop :=
  ∀ (src : Src) (s t : State) (n : Nat), n = packCount src s → exec (.pack src) s = .next t → t.result = 0 →
    t.pkf.read 0 = some Config.im ∧ t.pklen.toNat = 1 + ceilDiv n 7 ∧
    (∀ g k, 7 * g + 7 ≤ n → k ≤ 7 → (∀ j < 7, packPixel src s (7 * g + j) ≠ 0 ↔ j < k) →
      t.pkf.read (1 + g) = some (BitVec.ofNat 8 (2 ^ k - 1))) ∧
    ((∀ j < n, packPixel src s j = 0) → ∀ g < ceilDiv n 7, t.pkf.read (1 + g) = some 0) ∧
    ((∀ j < n, packPixel src s j ≠ 0) →
      (∀ g < n / 7, t.pkf.read (1 + g) = some 0x7F) ∧
      (n % 7 ≠ 0 → t.pkf.read (1 + n / 7) = some (BitVec.ofNat 8 (2 ^ (n % 7) - 1))) ∧
      (n = 512 → t.pklen = 75 ∧ (∀ g < 73, t.pkf.read (1 + g) = some 0x7F) ∧ t.pkf.read 74 = some 0x01))

/-- R134: "E_ENC cannot be raised by a WFU that works as specified". -/
def Obligations.EncodingErrorNeverArises : Prop :=
  ∀ (i : Instr) (s t : State), exec i s = .next t → t.result ≠ 1

/-- R140: FRAME with a PackedFrame, and without: then it destroys any unsent WireFrame. The premise on PKLEN holds in every state a
run reaches (`StateInv.pkfHolds`). -/
def Obligations.FrameAddsTheOuterMarker : Prop :=
  ∀ s : State,
    (s.pkv = true → s.pklen.toNat + 1 < 2 ^ 32 →
      ∃ t, exec .frame s = .next t ∧
        t.wflen.toNat = s.pklen.toNat + 1 ∧
        t.wfr.read 0 = some Config.om ∧
        (∀ i < s.pklen.toNat, ∀ b, s.pkf.read i = some b → t.wfr.read (1 + i) = some b) ∧
        (∀ i, t.wflen.toNat ≤ i → t.wfr.read i = s.wfr.read i) ∧
        t = { s with
          pkv := false
          wfr := t.wfr
          wflen := t.wflen
          wfv := true
          result := 0
          einfo := 0
          response := .result 0
          draws := t.draws }) ∧
    (s.pkv = false → ∃ t, exec .frame s = .next t ∧ t = { s with
      wfv := false
      wfr := t.wfr
      result := 4
      einfo := 1
      faults := s.faults ||| 0x10
      response := .result 4
      draws := t.draws })

/-- R141 with R140 and R133: PACK then FRAME leaves a WireFrame: the two markers, then the mask bytes. -/
def Obligations.PackThenFrameLeavesAWireFrame : Prop :=
  ∀ (src : Src) (s t u : State) (n : Nat), n = packCount src s → exec (.pack src) s = .next t → t.result = 0 →
    exec .frame t = .next u →
    u.result = 0 ∧ u.wfv = true ∧ u.wflen.toNat = t.pklen.toNat + 1 ∧ u.wflen.toNat = 2 + ceilDiv n 7 ∧
    u.wfr.read 0 = some Config.om ∧ u.wfr.read 1 = some Config.im ∧
    ∀ g < ceilDiv n 7, ∃ b, u.wfr.read (2 + g) = some b ∧ IsMaskByte n (packPixel src s) g b

/-! ### PMU -/

/-- R150, R153: MAP on a good layout. -/
def Obligations.MapCopiesPanelsInLutOrder : Prop :=
  ∀ s : State, GoodLayout s →
    ∃ t, exec .map s = .next t ∧
      t.rblen.toNat = s.w.toNat * s.h.toNat ∧
      (∀ i r c dst from', i < s.np.toNat → r < s.ph.toNat → c < s.pw.toNat →
        dst = i * (s.pw.toNat * s.ph.toNat) + r * s.pw.toNat + c →
        from' = ((originOf (readLut s i)).2 * s.ph.toNat + r) * s.w.toNat + ((originOf (readLut s i)).1 * s.pw.toNat + c) →
        dst < s.w.toNat * s.h.toNat ∧ from' < s.w.toNat * s.h.toNat ∧ t.rb.read dst = some (readFb s from')) ∧
      (∀ j, t.rblen.toNat ≤ j → t.rb.read j = s.rb.read j) ∧
      t = { s with
        rb := t.rb
        rblen := t.rblen
        rbv := true
        result := 0
        einfo := 0
        response := .result 0
        draws := t.draws }

/-- R152: MAP ends OK on the well-formed layouts that fit the memories, and on no other. -/
def Obligations.MapAcceptsExactlyTheGoodLayouts : Prop :=
  ∀ s t : State, exec .map s = .next t → (t.result = 0 ↔ GoodLayout s)

/-- R150, R207: which error MAP reports, with its detail word. An entry passes when it is in the grid and repeats none before it. -/
def Obligations.MapReportsTheFirstFailingCheck : Prop :=
  ∀ (s t : State) (gx gy : Nat) (passes : Nat → Prop),
    exec .map s = .next t → gx = s.w.toNat / s.pw.toNat → gy = s.h.toNat / s.ph.toNat →
    (∀ i, passes i ↔ ((originOf (readLut s i)).1 < gx ∧ (originOf (readLut s i)).2 < gy) ∧
      ∀ j < i, originOf (readLut s j) ≠ originOf (readLut s i)) →
    (Config.fbDepth < s.w.toNat * s.h.toNat → t.result = 5 ∧ t.einfo = 1) ∧
    (s.w.toNat * s.h.toNat ≤ Config.fbDepth →
      (Config.lutDepth < s.np.toNat → t.result = 5 ∧ t.einfo = 2) ∧
      (s.np.toNat ≤ Config.lutDepth →
        (s.pw.toNat = 0 ∨ s.ph.toNat = 0 → t.result = 3 ∧ t.einfo = 0x10000) ∧
        (s.pw.toNat ≠ 0 → s.ph.toNat ≠ 0 →
          (s.w.toNat % s.pw.toNat ≠ 0 ∨ s.h.toNat % s.ph.toNat ≠ 0 → t.result = 3 ∧ t.einfo = 0x20000) ∧
          (s.w.toNat % s.pw.toNat = 0 → s.h.toNat % s.ph.toNat = 0 →
            (s.np.toNat ≠ gx * gy → t.result = 3 ∧ t.einfo = 0x30000) ∧
            (s.np.toNat = gx * gy → ∀ i < s.np.toNat, (∀ j < i, passes j) →
              (gx ≤ (originOf (readLut s i)).1 ∨ gy ≤ (originOf (readLut s i)).2 →
                t.result = 3 ∧ t.einfo = BitVec.ofNat 32 (0x40000 + i)) ∧
              ((originOf (readLut s i)).1 < gx → (originOf (readLut s i)).2 < gy → ¬ passes i →
                t.result = 3 ∧ t.einfo = BitVec.ofNat 32 (0x50000 + i)))))))

/-- R150: what a MAP that raised an error leaves: RBV is 0, RBLEN keeps its value, RB is unspecified, nothing else of the frame path. -/
def Obligations.FailedMapClearsRbvAndLeavesAllButRbAndTheReport : Prop :=
  ∀ s t : State, exec .map s = .next t → t.result ≠ 0 →
    t = { s with
      rbv := false
      rb := t.rb
      result := t.result
      einfo := t.einfo
      faults := s.faults ||| BitVec.twoPow 8 t.result.toNat
      response := .result t.result
      draws := t.draws }

/-- R154: under a good layout MAP is a bijection from the destination positions onto the canvas positions. -/
def Obligations.MapIsABijection : Prop :=
  ∀ s : State, GoodLayout s →
    (∀ j < s.w.toNat * s.h.toNat, mapSource s j < s.w.toNat * s.h.toNat) ∧
    (∀ p < s.w.toNat * s.h.toNat, ∃ j < s.w.toNat * s.h.toNat, mapSource s j = p ∧
      ∀ k < s.w.toNat * s.h.toNat, mapSource s k = p → k = j) ∧
    ∃ t, exec .map s = .next t ∧ t.rblen.toNat = s.w.toNat * s.h.toNat ∧
      ∀ j < s.w.toNat * s.h.toNat, t.rb.read j = some (readFb s (mapSource s j))

/-- R155: with one panel MAP is the identity, and MAP then PACK gives the PackedFrame of PACK with SRC = 1; MAP is the identity as well
when the panels are the bands of the canvas from top to bottom. -/
def Obligations.OnePanelMapIsTheIdentity : Prop :=
  ∀ s t : State, GoodLayout s → exec .map s = .next t →
    (s.np.toNat = 1 →
      s.pw = s.w ∧ s.ph = s.h ∧ originOf (readLut s 0) = (0, 0) ∧
      (∀ j < s.w.toNat * s.h.toNat, t.rb.read j = some (readFb s j)) ∧
      ∀ u v, exec (.pack .reorder) t = .next u → exec (.pack .canvas) s = .next v →
        u.pklen = v.pklen ∧ ∀ i < u.pklen.toNat, u.pkf.read i = v.pkf.read i) ∧
    (s.w.toNat / s.pw.toNat = 1 → (∀ i < s.np.toNat, originOf (readLut s i) = (0, i)) →
      ∀ j < s.w.toNat * s.h.toNat, t.rb.read j = some (readFb s j))

/-! ### CSU -/

/-- R170, R171: SPLIT when the sink accepts every chunk. -/
def Obligations.SplitHandsOverTheWholeFrame : Prop :=
  ∀ (s : State) (m l n : Nat), s.wfv = true → m = s.maxchunk.toNat → 1 ≤ m → l = s.wflen.toNat → n = ceilDiv l m →
    SinkAccepts n s →
    ∃ t recs, exec .split s = .next t ∧ t.nchunk.toNat = n ∧ recs.length = n ∧ (1 ≤ l → 1 ≤ n) ∧
      recs.flatMap TxRecord.bytes = (List.range l).map (readWfr s) ∧
      (∀ k, (h : k < recs.length) → 1 ≤ recs[k].bytes.length ∧ recs[k].bytes.length ≤ m ∧
        recs[k].bytes.length = (if k + 1 < n then m else l - (n - 1) * m) ∧
        recs[k].first = decide (k = 0) ∧ recs[k].last = decide (k + 1 = n) ∧ recs[k].answer = .ok) ∧
      t = { s with
        wfv := false
        nchunk := t.nchunk
        txReadyAt := t.txReadyAt
        txlog := s.txlog ++ recs
        result := 0
        einfo := 0
        response := .result 0
        now := t.now
        sink := s.sink.drop n
        draws := t.draws }

/-- R173 with R170: SPLIT when the sink's first `fail` is its answer to chunk `f`. -/
def Obligations.SplitStopsAtTheFirstFailure : Prop :=
  ∀ (s : State) (m n f : Nat), s.wfv = true → m = s.maxchunk.toNat → 1 ≤ m → n = ceilDiv s.wflen.toNat m → f < n →
    SinkAccepts f s → (∃ lag took, s.sink[f]? = some (.answers .fail lag took)) →
    ∃ t recs, exec .split s = .next t ∧ t.nchunk.toNat = f ∧ recs.length = f + 1 ∧
      recs.flatMap TxRecord.bytes = ((List.range s.wflen.toNat).map (readWfr s)).take ((f + 1) * m) ∧
      (∀ k, (h : k < recs.length) → recs[k].bytes.length ≤ m ∧ recs[k].first = decide (k = 0) ∧
        recs[k].last = decide (k + 1 = n) ∧ recs[k].answer = if k = f then .fail else .ok) ∧
      (∀ r, recs.getLast? = some r → r.tEnd + s.paceFrame.toNat ≤ t.now) ∧
      t = { s with
        wfv := false
        nchunk := t.nchunk
        txReadyAt := t.txReadyAt
        txlog := s.txlog ++ recs
        result := 2
        einfo := BitVec.ofNat 32 f
        faults := s.faults ||| 0x04
        response := .result 2
        now := t.now
        sink := s.sink.drop (f + 1)
        draws := t.draws }

/-- R170: the two checks of SPLIT, before anything is handed over; WFV is unchanged. -/
def Obligations.SplitChecksBeforeItSends : Prop :=
  ∀ s : State,
    (s.wfv = false → exec .split s = .next { s with
      result := 4
      einfo := 2
      faults := s.faults ||| 0x10
      response := .result 4 }) ∧
    (s.wfv = true → s.maxchunk = 0 → exec .split s = .next { s with
      result := 5
      einfo := 3
      faults := s.faults ||| 0x20
      response := .result 5 })

/-- R172: the pacing law over the records of one SPLIT, with its response at `t.now` at the earliest; the hand-overs start after the
issue, so the law reaches from one SPLIT to the next. And no functional result depends on time. -/
def Obligations.PacingLaw : Prop :=
  (∀ s t : State, SinkAnswers s → exec .split s = .next t →
    ∃ recs, t.txlog = s.txlog ++ recs ∧
      (∀ k, (h : k < recs.length) → s.now ≤ recs[k].tStart ∧ recs[k].tStart ≤ recs[k].tEnd) ∧
      (∀ k, (h : k + 1 < recs.length) → recs[k].tEnd + s.paceGap.toNat ≤ recs[k + 1].tStart) ∧
      ∀ r, recs.getLast? = some r → r.tEnd + s.paceFrame.toNat ≤ t.now) ∧
  ∀ (i : Instr) (s s' : State), eraseTimes s = eraseTimes s' →
    mapNext eraseTimes (exec i s) = mapNext eraseTimes (exec i s')

/-- R250: a frame of `n` chunks, all accepted, keeps the WFU busy for at least `(n-1) * PACE_GAP + PACE_FRAME` ticks. -/
def Obligations.FrameTakesAtLeastItsPacing : Prop :=
  ∀ s t : State, SinkAnswers s → exec .split s = .next t → t.result = 0 → ∀ r : TxRecord,
    t.txlog[s.txlog.length]? = some r →
    r.tStart + (t.nchunk.toNat - 1) * s.paceGap.toNat + s.paceFrame.toNat ≤ t.now

/-- R216 (a): when the sink never answers chunk `f`, SPLIT never returns. -/
def Obligations.SplitHangsOnASilentSink : Prop :=
  ∀ (s : State) (f : Nat), s.wfv = true → s.maxchunk ≠ 0 → f < ceilDiv s.wflen.toNat s.maxchunk.toNat →
    SinkAccepts f s → s.sink[f]? = some .silent → exec .split s = .fault .hang

/-- R230, R231: a reset in the middle of a SPLIT leaves the reset values. (What TXLOG may hold of the chunk being handed over is U5, log 13.) -/
def Obligations.ResetDuringSplitAbandonsIt : Prop :=
  ∀ (s : State) (f lag took : Nat) (seen : Option Cut), s.wfv = true → s.maxchunk ≠ 0 →
    f < ceilDiv s.wflen.toNat s.maxchunk.toNat →
    SinkAccepts f s → s.sink[f]? = some (.reset lag took seen) →
    ∃ t, exec .split s = .next t ∧ RegistersReset t ∧ t.rbv = false ∧ t.pkv = false ∧ t.wfv = false ∧
      t.txReadyAt = t.now ∧ MemoriesUndefined t ∧ t.response = .nothing ∧
      (t.txlog = [] ∨ ∃ r, t.txlog = [r] ∧ r.bytes.length ≤ s.maxchunk.toNat)

/-- R180: RUN is exactly its stages issued one after another, stopping at the first that does not return OK. -/
def Obligations.RunIsItsStagesInTurn : Prop :=
  ∀ (s : State) (andThen : Host.Outcome State Fault Refusal → Instr → Host.Outcome State Fault Refusal),
    (∀ o i, andThen o i = match o with
      | .next t => if t.result = 0 then exec i t else .next t
      | .fault f => .fault f
      | .refused r => .refused r) →
    exec (.run .reorder) s = andThen (andThen (andThen (exec .map s) (.pack .reorder)) .frame) .split ∧
    exec (.run .canvas) s = andThen (andThen (exec (.pack .canvas) s) .frame) .split

/-- R180 with R97, R98, R153: the whole frame pipeline, from the canvas to the bytes the sink takes. -/
def Obligations.RunSendsTheWireFrameOfTheCanvas : Prop :=
  ∀ (src : Src) (s : State) (n l : Nat),
    n = s.w.toNat * s.h.toNat → l = 2 + ceilDiv n 7 →
    (src = .reorder → GoodLayout s) → (src = .canvas → n ≤ Config.fbDepth) →
    1 ≤ s.maxchunk.toNat → SinkAccepts (ceilDiv l s.maxchunk.toNat) s →
    ∃ t recs bytes, exec (.run src) s = .next t ∧
      recs.length = ceilDiv l s.maxchunk.toNat ∧ t.nchunk.toNat = recs.length ∧
      (∀ r ∈ recs, 1 ≤ r.bytes.length ∧ r.bytes.length ≤ s.maxchunk.toNat ∧ r.answer = .ok) ∧
      bytes = recs.flatMap TxRecord.bytes ∧ bytes.length = l ∧
      bytes[0]? = some Config.om ∧ bytes[1]? = some Config.im ∧
      (∀ g < ceilDiv n 7, ∃ b, bytes[2 + g]? = some b ∧ IsMaskByte n (wirePixel src s) g b) ∧
      t = { s with
        rbv := if src = .reorder then false else s.rbv
        pkv := false
        wfv := false
        rb := t.rb
        rblen := t.rblen
        pkf := t.pkf
        pklen := t.pklen
        wfr := t.wfr
        wflen := t.wflen
        nchunk := t.nchunk
        txReadyAt := t.txReadyAt
        txlog := s.txlog ++ recs
        result := 0
        einfo := 0
        response := .result 0
        now := t.now
        sink := t.sink
        draws := t.draws } ∧
      (src = .canvas → t.rb = s.rb ∧ t.rblen = s.rblen)

/-! ### Whole-machine rules -/

/-- R26: FAULTS records every error and loses none. -/
def Obligations.FaultsRecordEveryError : Prop :=
  ∀ (i : Instr) (s t : State), SinkAnswers s → exec i s = .next t →
    t.response = .result t.result ∧ (t.result = 0 → t.einfo = 0) ∧
    t.faults = if t.result = 0 then s.faults else s.faults ||| BitVec.twoPow 8 t.result.toNat

/-- R200, R180: the results each command can return. -/
def Obligations.EachCommandReturnsOnlyItsResults : Prop :=
  ∀ s t : State,
    (exec .cfgbuild s = .next t → t.result = 0) ∧
    (exec .cfgcheck s = .next t → t.result = 0 ∨ t.result = 7) ∧
    (exec .map s = .next t → t.result = 0 ∨ t.result = 3 ∨ t.result = 5) ∧
    (exec (.pack .reorder) s = .next t → t.result = 0 ∨ t.result = 4) ∧
    (exec (.pack .canvas) s = .next t → t.result = 0 ∨ t.result = 5) ∧
    (exec .frame s = .next t → t.result = 0 ∨ t.result = 4) ∧
    (exec .split s = .next t → t.result = 0 ∨ t.result = 2 ∨ t.result = 4 ∨ t.result = 5) ∧
    (exec (.run .reorder) s = .next t → t.result = 0 ∨ t.result = 2 ∨ t.result = 3 ∨ t.result = 5) ∧
    (exec (.run .canvas) s = .next t → t.result = 0 ∨ t.result = 2 ∨ t.result = 5)

/-- R181, R216: every command ends, under the two fairness assumptions of R216; the commands that send nothing end without them.
`SinkSpeaks` and `ClockMoves` speak of the sink script only. Past its end the sink is taken to answer (DESIGN CHOICE, log 6) and the clock
to pass every deadline (DESIGN CHOICE, log 7): that SPLIT and RUN return from a state whose script is shorter than the frame rests on
these two choices of the model, and on no rule of the spec. -/
def Obligations.EveryCommandReturns : Prop :=
  ∀ (i : Instr) (s : State), ((SinkSpeaks s ∧ ClockMoves s) ∨ (i ≠ .split ∧ ∀ src, i ≠ .run src)) →
    ∃ t, exec i s = .next t

/-- R24, R27, R28, R30, R31: what no command writes, and what only the configuration path writes. -/
def Obligations.CommandsLeaveTheConfigurationAlone : Prop :=
  ∀ (i : Instr) (s t : State), SinkAnswers s → exec i s = .next t →
    t.cfg = s.cfg ∧ t.w = s.w ∧ t.h = s.h ∧ t.pw = s.pw ∧ t.ph = s.ph ∧ t.np = s.np ∧ t.maxchunk = s.maxchunk ∧
    t.paceGap = s.paceGap ∧ t.paceFrame = s.paceFrame ∧ t.lut = s.lut ∧ t.fb = s.fb ∧ t.script = s.script ∧
    (i ≠ .cfgbuild → t.cpkt = s.cpkt) ∧ (i ≠ .cfgbuild → i ≠ .cfgcheck → t.fold = s.fold)

/-- R175, R79: a command that ends with any error but E_XPORT has handed nothing to the sink; only SPLIT and RUN hand over anything. -/
def Obligations.NoByteOfABadFrameIsSent : Prop :=
  ∀ (i : Instr) (s t : State), exec i s = .next t →
    (t.result ≠ 0 → t.result ≠ 2 → t.txlog = s.txlog ∧ t.sink = s.sink) ∧
    (i ≠ .split → (∀ src, i ≠ .run src) → t.txlog = s.txlog ∧ t.sink = s.sink)

/-- R172, R250: two runs that differ only in times stay so: no step's bytes, results or registers depend on a time. -/
def Obligations.TimeChangesNoFunctionalResult : Prop :=
  ∀ s s' : State, eraseTimes s = eraseTimes s' → mapNext eraseTimes (step s) = mapNext eraseTimes (step s')

/-- R213: "a natural number of `TICK`s that never decreases". -/
def Obligations.TimeNeverDecreases : Prop :=
  ∀ s t : State, step s = .next t → s.now ≤ t.now

/-- R174, R25, R26, R29, R33, R36: the invariant of the WFU is kept by every step, whatever the host and the sink do. -/
def Obligations.EveryStepKeepsTheInvariant : Prop :=
  ∀ s t : State, StateInv s → step s = .next t → StateInv t

/-! ### A clock that stops -/

/-- R216 (b): SPLIT never returns when the clock never passes the deadline it waits for after the sink's answer to chunk `f`, ok or
fail (the form of this is the model's, log 7, 8). A deadline that is not ahead is not waited for (R215): with both paces 0 SPLIT returns
whatever the clock does, if the sink speaks (past its script the sink is taken to answer: DESIGN CHOICE, log 6). -/
def Obligations.SplitHangsOnAStoppedClock : Prop :=
  (∀ (s : State) (n f lag took : Nat) (a : Answer), s.wfv = true → s.maxchunk ≠ 0 →
    n = ceilDiv s.wflen.toNat s.maxchunk.toNat → f < n → SinkAccepts f s → s.sink[f]? = some (.stalls a lag took) →
    (if a = .ok ∧ f + 1 < n then s.paceGap else s.paceFrame) ≠ 0 → exec .split s = .fault .hang) ∧
  ∀ s : State, s.paceGap = 0 → s.paceFrame = 0 → SinkSpeaks s → ∃ t, exec .split s = .next t
end

