-- ==== Sys2Proof/Laws/State.lean ====
section
/-! SUPPORT. One lemma per field per update of the state, true by `rfl`. -/

namespace Sys2Proof.Machine

/-! ### `raise` -/

@[simp] theorem raise_cfg (e : ErrKind) (info : Word) (s : State) : (raise e info s).cfg = s.cfg := rfl
@[simp] theorem raise_cpkt (e : ErrKind) (info : Word) (s : State) : (raise e info s).cpkt = s.cpkt := rfl
@[simp] theorem raise_fold (e : ErrKind) (info : Word) (s : State) : (raise e info s).fold = s.fold := rfl
@[simp] theorem raise_rbv (e : ErrKind) (info : Word) (s : State) : (raise e info s).rbv = s.rbv := rfl
@[simp] theorem raise_pkv (e : ErrKind) (info : Word) (s : State) : (raise e info s).pkv = s.pkv := rfl
@[simp] theorem raise_wfv (e : ErrKind) (info : Word) (s : State) : (raise e info s).wfv = s.wfv := rfl
@[simp] theorem raise_result (e : ErrKind) (info : Word) (s : State) : (raise e info s).result = errCode e := rfl
@[simp] theorem raise_einfo (e : ErrKind) (info : Word) (s : State) : (raise e info s).einfo = info := rfl
@[simp] theorem raise_faults (e : ErrKind) (info : Word) (s : State) : (raise e info s).faults = setFaultBit s.faults (errCode e) := rfl
@[simp] theorem raise_w (e : ErrKind) (info : Word) (s : State) : (raise e info s).w = s.w := rfl
@[simp] theorem raise_h (e : ErrKind) (info : Word) (s : State) : (raise e info s).h = s.h := rfl
@[simp] theorem raise_pw (e : ErrKind) (info : Word) (s : State) : (raise e info s).pw = s.pw := rfl
@[simp] theorem raise_ph (e : ErrKind) (info : Word) (s : State) : (raise e info s).ph = s.ph := rfl
@[simp] theorem raise_np (e : ErrKind) (info : Word) (s : State) : (raise e info s).np = s.np := rfl
@[simp] theorem raise_maxchunk (e : ErrKind) (info : Word) (s : State) : (raise e info s).maxchunk = s.maxchunk := rfl
@[simp] theorem raise_paceGap (e : ErrKind) (info : Word) (s : State) : (raise e info s).paceGap = s.paceGap := rfl
@[simp] theorem raise_paceFrame (e : ErrKind) (info : Word) (s : State) : (raise e info s).paceFrame = s.paceFrame := rfl
@[simp] theorem raise_rblen (e : ErrKind) (info : Word) (s : State) : (raise e info s).rblen = s.rblen := rfl
@[simp] theorem raise_pklen (e : ErrKind) (info : Word) (s : State) : (raise e info s).pklen = s.pklen := rfl
@[simp] theorem raise_wflen (e : ErrKind) (info : Word) (s : State) : (raise e info s).wflen = s.wflen := rfl
@[simp] theorem raise_nchunk (e : ErrKind) (info : Word) (s : State) : (raise e info s).nchunk = s.nchunk := rfl
@[simp] theorem raise_lut (e : ErrKind) (info : Word) (s : State) : (raise e info s).lut = s.lut := rfl
@[simp] theorem raise_fb (e : ErrKind) (info : Word) (s : State) : (raise e info s).fb = s.fb := rfl
@[simp] theorem raise_rb (e : ErrKind) (info : Word) (s : State) : (raise e info s).rb = s.rb := rfl
@[simp] theorem raise_pkf (e : ErrKind) (info : Word) (s : State) : (raise e info s).pkf = s.pkf := rfl
@[simp] theorem raise_wfr (e : ErrKind) (info : Word) (s : State) : (raise e info s).wfr = s.wfr := rfl
@[simp] theorem raise_txReadyAt (e : ErrKind) (info : Word) (s : State) : (raise e info s).txReadyAt = s.txReadyAt := rfl
@[simp] theorem raise_txlog (e : ErrKind) (info : Word) (s : State) : (raise e info s).txlog = s.txlog := rfl
@[simp] theorem raise_now (e : ErrKind) (info : Word) (s : State) : (raise e info s).now = s.now := rfl
@[simp] theorem raise_script (e : ErrKind) (info : Word) (s : State) : (raise e info s).script = s.script := rfl
@[simp] theorem raise_sink (e : ErrKind) (info : Word) (s : State) : (raise e info s).sink = s.sink := rfl
@[simp] theorem raise_draws (e : ErrKind) (info : Word) (s : State) : (raise e info s).draws = s.draws := rfl
@[simp] theorem raise_response (e : ErrKind) (info : Word) (s : State) : (raise e info s).response = .result (errCode e) := rfl
@[simp] theorem raise_offInterface (e : ErrKind) (info : Word) (s : State) : (raise e info s).offInterface = s.offInterface := rfl

/-! ### `done` -/

@[simp] theorem done_cfg (s : State) : (done s).cfg = s.cfg := rfl
@[simp] theorem done_cpkt (s : State) : (done s).cpkt = s.cpkt := rfl
@[simp] theorem done_fold (s : State) : (done s).fold = s.fold := rfl
@[simp] theorem done_rbv (s : State) : (done s).rbv = s.rbv := rfl
@[simp] theorem done_pkv (s : State) : (done s).pkv = s.pkv := rfl
@[simp] theorem done_wfv (s : State) : (done s).wfv = s.wfv := rfl
@[simp] theorem done_result (s : State) : (done s).result = 0 := rfl
@[simp] theorem done_einfo (s : State) : (done s).einfo = 0 := rfl
@[simp] theorem done_faults (s : State) : (done s).faults = s.faults := rfl
@[simp] theorem done_w (s : State) : (done s).w = s.w := rfl
@[simp] theorem done_h (s : State) : (done s).h = s.h := rfl
@[simp] theorem done_pw (s : State) : (done s).pw = s.pw := rfl
@[simp] theorem done_ph (s : State) : (done s).ph = s.ph := rfl
@[simp] theorem done_np (s : State) : (done s).np = s.np := rfl
@[simp] theorem done_maxchunk (s : State) : (done s).maxchunk = s.maxchunk := rfl
@[simp] theorem done_paceGap (s : State) : (done s).paceGap = s.paceGap := rfl
@[simp] theorem done_paceFrame (s : State) : (done s).paceFrame = s.paceFrame := rfl
@[simp] theorem done_rblen (s : State) : (done s).rblen = s.rblen := rfl
@[simp] theorem done_pklen (s : State) : (done s).pklen = s.pklen := rfl
@[simp] theorem done_wflen (s : State) : (done s).wflen = s.wflen := rfl
@[simp] theorem done_nchunk (s : State) : (done s).nchunk = s.nchunk := rfl
@[simp] theorem done_lut (s : State) : (done s).lut = s.lut := rfl
@[simp] theorem done_fb (s : State) : (done s).fb = s.fb := rfl
@[simp] theorem done_rb (s : State) : (done s).rb = s.rb := rfl
@[simp] theorem done_pkf (s : State) : (done s).pkf = s.pkf := rfl
@[simp] theorem done_wfr (s : State) : (done s).wfr = s.wfr := rfl
@[simp] theorem done_txReadyAt (s : State) : (done s).txReadyAt = s.txReadyAt := rfl
@[simp] theorem done_txlog (s : State) : (done s).txlog = s.txlog := rfl
@[simp] theorem done_now (s : State) : (done s).now = s.now := rfl
@[simp] theorem done_script (s : State) : (done s).script = s.script := rfl
@[simp] theorem done_sink (s : State) : (done s).sink = s.sink := rfl
@[simp] theorem done_draws (s : State) : (done s).draws = s.draws := rfl
@[simp] theorem done_response (s : State) : (done s).response = .result 0 := rfl
@[simp] theorem done_offInterface (s : State) : (done s).offInterface = s.offInterface := rfl

/-! ### `elapse` -/

@[simp] theorem elapse_cfg (k : Nat) (s : State) : (elapse k s).cfg = s.cfg := rfl
@[simp] theorem elapse_cpkt (k : Nat) (s : State) : (elapse k s).cpkt = s.cpkt := rfl
@[simp] theorem elapse_fold (k : Nat) (s : State) : (elapse k s).fold = s.fold := rfl
@[simp] theorem elapse_rbv (k : Nat) (s : State) : (elapse k s).rbv = s.rbv := rfl
@[simp] theorem elapse_pkv (k : Nat) (s : State) : (elapse k s).pkv = s.pkv := rfl
@[simp] theorem elapse_wfv (k : Nat) (s : State) : (elapse k s).wfv = s.wfv := rfl
@[simp] theorem elapse_result (k : Nat) (s : State) : (elapse k s).result = s.result := rfl
@[simp] theorem elapse_einfo (k : Nat) (s : State) : (elapse k s).einfo = s.einfo := rfl
@[simp] theorem elapse_faults (k : Nat) (s : State) : (elapse k s).faults = s.faults := rfl
@[simp] theorem elapse_w (k : Nat) (s : State) : (elapse k s).w = s.w := rfl
@[simp] theorem elapse_h (k : Nat) (s : State) : (elapse k s).h = s.h := rfl
@[simp] theorem elapse_pw (k : Nat) (s : State) : (elapse k s).pw = s.pw := rfl
@[simp] theorem elapse_ph (k : Nat) (s : State) : (elapse k s).ph = s.ph := rfl
@[simp] theorem elapse_np (k : Nat) (s : State) : (elapse k s).np = s.np := rfl
@[simp] theorem elapse_maxchunk (k : Nat) (s : State) : (elapse k s).maxchunk = s.maxchunk := rfl
@[simp] theorem elapse_paceGap (k : Nat) (s : State) : (elapse k s).paceGap = s.paceGap := rfl
@[simp] theorem elapse_paceFrame (k : Nat) (s : State) : (elapse k s).paceFrame = s.paceFrame := rfl
@[simp] theorem elapse_rblen (k : Nat) (s : State) : (elapse k s).rblen = s.rblen := rfl
@[simp] theorem elapse_pklen (k : Nat) (s : State) : (elapse k s).pklen = s.pklen := rfl
@[simp] theorem elapse_wflen (k : Nat) (s : State) : (elapse k s).wflen = s.wflen := rfl
@[simp] theorem elapse_nchunk (k : Nat) (s : State) : (elapse k s).nchunk = s.nchunk := rfl
@[simp] theorem elapse_lut (k : Nat) (s : State) : (elapse k s).lut = s.lut := rfl
@[simp] theorem elapse_fb (k : Nat) (s : State) : (elapse k s).fb = s.fb := rfl
@[simp] theorem elapse_rb (k : Nat) (s : State) : (elapse k s).rb = s.rb := rfl
@[simp] theorem elapse_pkf (k : Nat) (s : State) : (elapse k s).pkf = s.pkf := rfl
@[simp] theorem elapse_wfr (k : Nat) (s : State) : (elapse k s).wfr = s.wfr := rfl
@[simp] theorem elapse_txReadyAt (k : Nat) (s : State) : (elapse k s).txReadyAt = s.txReadyAt := rfl
@[simp] theorem elapse_txlog (k : Nat) (s : State) : (elapse k s).txlog = s.txlog := rfl
@[simp] theorem elapse_now (k : Nat) (s : State) : (elapse k s).now = s.now + k := rfl
@[simp] theorem elapse_script (k : Nat) (s : State) : (elapse k s).script = s.script := rfl
@[simp] theorem elapse_sink (k : Nat) (s : State) : (elapse k s).sink = s.sink := rfl
@[simp] theorem elapse_draws (k : Nat) (s : State) : (elapse k s).draws = s.draws := rfl
@[simp] theorem elapse_response (k : Nat) (s : State) : (elapse k s).response = s.response := rfl
@[simp] theorem elapse_offInterface (k : Nat) (s : State) : (elapse k s).offInterface = s.offInterface := rfl

/-! ### `waitUntil` -/

@[simp] theorem waitUntil_cfg (k : Nat) (s : State) : (waitUntil k s).cfg = s.cfg := rfl
@[simp] theorem waitUntil_cpkt (k : Nat) (s : State) : (waitUntil k s).cpkt = s.cpkt := rfl
@[simp] theorem waitUntil_fold (k : Nat) (s : State) : (waitUntil k s).fold = s.fold := rfl
@[simp] theorem waitUntil_rbv (k : Nat) (s : State) : (waitUntil k s).rbv = s.rbv := rfl
@[simp] theorem waitUntil_pkv (k : Nat) (s : State) : (waitUntil k s).pkv = s.pkv := rfl
@[simp] theorem waitUntil_wfv (k : Nat) (s : State) : (waitUntil k s).wfv = s.wfv := rfl
@[simp] theorem waitUntil_result (k : Nat) (s : State) : (waitUntil k s).result = s.result := rfl
@[simp] theorem waitUntil_einfo (k : Nat) (s : State) : (waitUntil k s).einfo = s.einfo := rfl
@[simp] theorem waitUntil_faults (k : Nat) (s : State) : (waitUntil k s).faults = s.faults := rfl
@[simp] theorem waitUntil_w (k : Nat) (s : State) : (waitUntil k s).w = s.w := rfl
@[simp] theorem waitUntil_h (k : Nat) (s : State) : (waitUntil k s).h = s.h := rfl
@[simp] theorem waitUntil_pw (k : Nat) (s : State) : (waitUntil k s).pw = s.pw := rfl
@[simp] theorem waitUntil_ph (k : Nat) (s : State) : (waitUntil k s).ph = s.ph := rfl
@[simp] theorem waitUntil_np (k : Nat) (s : State) : (waitUntil k s).np = s.np := rfl
@[simp] theorem waitUntil_maxchunk (k : Nat) (s : State) : (waitUntil k s).maxchunk = s.maxchunk := rfl
@[simp] theorem waitUntil_paceGap (k : Nat) (s : State) : (waitUntil k s).paceGap = s.paceGap := rfl
@[simp] theorem waitUntil_paceFrame (k : Nat) (s : State) : (waitUntil k s).paceFrame = s.paceFrame := rfl
@[simp] theorem waitUntil_rblen (k : Nat) (s : State) : (waitUntil k s).rblen = s.rblen := rfl
@[simp] theorem waitUntil_pklen (k : Nat) (s : State) : (waitUntil k s).pklen = s.pklen := rfl
@[simp] theorem waitUntil_wflen (k : Nat) (s : State) : (waitUntil k s).wflen = s.wflen := rfl
@[simp] theorem waitUntil_nchunk (k : Nat) (s : State) : (waitUntil k s).nchunk = s.nchunk := rfl
@[simp] theorem waitUntil_lut (k : Nat) (s : State) : (waitUntil k s).lut = s.lut := rfl
@[simp] theorem waitUntil_fb (k : Nat) (s : State) : (waitUntil k s).fb = s.fb := rfl
@[simp] theorem waitUntil_rb (k : Nat) (s : State) : (waitUntil k s).rb = s.rb := rfl
@[simp] theorem waitUntil_pkf (k : Nat) (s : State) : (waitUntil k s).pkf = s.pkf := rfl
@[simp] theorem waitUntil_wfr (k : Nat) (s : State) : (waitUntil k s).wfr = s.wfr := rfl
@[simp] theorem waitUntil_txReadyAt (k : Nat) (s : State) : (waitUntil k s).txReadyAt = s.txReadyAt := rfl
@[simp] theorem waitUntil_txlog (k : Nat) (s : State) : (waitUntil k s).txlog = s.txlog := rfl
@[simp] theorem waitUntil_now (k : Nat) (s : State) : (waitUntil k s).now = max s.now k := rfl
@[simp] theorem waitUntil_script (k : Nat) (s : State) : (waitUntil k s).script = s.script := rfl
@[simp] theorem waitUntil_sink (k : Nat) (s : State) : (waitUntil k s).sink = s.sink := rfl
@[simp] theorem waitUntil_draws (k : Nat) (s : State) : (waitUntil k s).draws = s.draws := rfl
@[simp] theorem waitUntil_response (k : Nat) (s : State) : (waitUntil k s).response = s.response := rfl
@[simp] theorem waitUntil_offInterface (k : Nat) (s : State) : (waitUntil k s).offInterface = s.offInterface := rfl

/-! ### `setDeadline` -/

@[simp] theorem setDeadline_cfg (p : Word) (s : State) : (setDeadline p s).cfg = s.cfg := rfl
@[simp] theorem setDeadline_cpkt (p : Word) (s : State) : (setDeadline p s).cpkt = s.cpkt := rfl
@[simp] theorem setDeadline_fold (p : Word) (s : State) : (setDeadline p s).fold = s.fold := rfl
@[simp] theorem setDeadline_rbv (p : Word) (s : State) : (setDeadline p s).rbv = s.rbv := rfl
@[simp] theorem setDeadline_pkv (p : Word) (s : State) : (setDeadline p s).pkv = s.pkv := rfl
@[simp] theorem setDeadline_wfv (p : Word) (s : State) : (setDeadline p s).wfv = s.wfv := rfl
@[simp] theorem setDeadline_result (p : Word) (s : State) : (setDeadline p s).result = s.result := rfl
@[simp] theorem setDeadline_einfo (p : Word) (s : State) : (setDeadline p s).einfo = s.einfo := rfl
@[simp] theorem setDeadline_faults (p : Word) (s : State) : (setDeadline p s).faults = s.faults := rfl
@[simp] theorem setDeadline_w (p : Word) (s : State) : (setDeadline p s).w = s.w := rfl
@[simp] theorem setDeadline_h (p : Word) (s : State) : (setDeadline p s).h = s.h := rfl
@[simp] theorem setDeadline_pw (p : Word) (s : State) : (setDeadline p s).pw = s.pw := rfl
@[simp] theorem setDeadline_ph (p : Word) (s : State) : (setDeadline p s).ph = s.ph := rfl
@[simp] theorem setDeadline_np (p : Word) (s : State) : (setDeadline p s).np = s.np := rfl
@[simp] theorem setDeadline_maxchunk (p : Word) (s : State) : (setDeadline p s).maxchunk = s.maxchunk := rfl
@[simp] theorem setDeadline_paceGap (p : Word) (s : State) : (setDeadline p s).paceGap = s.paceGap := rfl
@[simp] theorem setDeadline_paceFrame (p : Word) (s : State) : (setDeadline p s).paceFrame = s.paceFrame := rfl
@[simp] theorem setDeadline_rblen (p : Word) (s : State) : (setDeadline p s).rblen = s.rblen := rfl
@[simp] theorem setDeadline_pklen (p : Word) (s : State) : (setDeadline p s).pklen = s.pklen := rfl
@[simp] theorem setDeadline_wflen (p : Word) (s : State) : (setDeadline p s).wflen = s.wflen := rfl
@[simp] theorem setDeadline_nchunk (p : Word) (s : State) : (setDeadline p s).nchunk = s.nchunk := rfl
@[simp] theorem setDeadline_lut (p : Word) (s : State) : (setDeadline p s).lut = s.lut := rfl
@[simp] theorem setDeadline_fb (p : Word) (s : State) : (setDeadline p s).fb = s.fb := rfl
@[simp] theorem setDeadline_rb (p : Word) (s : State) : (setDeadline p s).rb = s.rb := rfl
@[simp] theorem setDeadline_pkf (p : Word) (s : State) : (setDeadline p s).pkf = s.pkf := rfl
@[simp] theorem setDeadline_wfr (p : Word) (s : State) : (setDeadline p s).wfr = s.wfr := rfl
@[simp] theorem setDeadline_txReadyAt (p : Word) (s : State) : (setDeadline p s).txReadyAt = s.now + p.toNat := rfl
@[simp] theorem setDeadline_txlog (p : Word) (s : State) : (setDeadline p s).txlog = s.txlog := rfl
@[simp] theorem setDeadline_now (p : Word) (s : State) : (setDeadline p s).now = s.now := rfl
@[simp] theorem setDeadline_script (p : Word) (s : State) : (setDeadline p s).script = s.script := rfl
@[simp] theorem setDeadline_sink (p : Word) (s : State) : (setDeadline p s).sink = s.sink := rfl
@[simp] theorem setDeadline_draws (p : Word) (s : State) : (setDeadline p s).draws = s.draws := rfl
@[simp] theorem setDeadline_response (p : Word) (s : State) : (setDeadline p s).response = s.response := rfl
@[simp] theorem setDeadline_offInterface (p : Word) (s : State) : (setDeadline p s).offInterface = s.offInterface := rfl

/-! ### `startMap` -/

@[simp] theorem startMap_cfg (s : State) : (startMap s).cfg = s.cfg := rfl
@[simp] theorem startMap_cpkt (s : State) : (startMap s).cpkt = s.cpkt := rfl
@[simp] theorem startMap_fold (s : State) : (startMap s).fold = s.fold := rfl
@[simp] theorem startMap_rbv (s : State) : (startMap s).rbv = false := rfl
@[simp] theorem startMap_pkv (s : State) : (startMap s).pkv = s.pkv := rfl
@[simp] theorem startMap_wfv (s : State) : (startMap s).wfv = s.wfv := rfl
@[simp] theorem startMap_result (s : State) : (startMap s).result = s.result := rfl
@[simp] theorem startMap_einfo (s : State) : (startMap s).einfo = s.einfo := rfl
@[simp] theorem startMap_faults (s : State) : (startMap s).faults = s.faults := rfl
@[simp] theorem startMap_w (s : State) : (startMap s).w = s.w := rfl
@[simp] theorem startMap_h (s : State) : (startMap s).h = s.h := rfl
@[simp] theorem startMap_pw (s : State) : (startMap s).pw = s.pw := rfl
@[simp] theorem startMap_ph (s : State) : (startMap s).ph = s.ph := rfl
@[simp] theorem startMap_np (s : State) : (startMap s).np = s.np := rfl
@[simp] theorem startMap_maxchunk (s : State) : (startMap s).maxchunk = s.maxchunk := rfl
@[simp] theorem startMap_paceGap (s : State) : (startMap s).paceGap = s.paceGap := rfl
@[simp] theorem startMap_paceFrame (s : State) : (startMap s).paceFrame = s.paceFrame := rfl
@[simp] theorem startMap_rblen (s : State) : (startMap s).rblen = s.rblen := rfl
@[simp] theorem startMap_pklen (s : State) : (startMap s).pklen = s.pklen := rfl
@[simp] theorem startMap_wflen (s : State) : (startMap s).wflen = s.wflen := rfl
@[simp] theorem startMap_nchunk (s : State) : (startMap s).nchunk = s.nchunk := rfl
@[simp] theorem startMap_lut (s : State) : (startMap s).lut = s.lut := rfl
@[simp] theorem startMap_fb (s : State) : (startMap s).fb = s.fb := rfl
@[simp] theorem startMap_rb (s : State) : (startMap s).rb = s.rb := rfl
@[simp] theorem startMap_pkf (s : State) : (startMap s).pkf = s.pkf := rfl
@[simp] theorem startMap_wfr (s : State) : (startMap s).wfr = s.wfr := rfl
@[simp] theorem startMap_txReadyAt (s : State) : (startMap s).txReadyAt = s.txReadyAt := rfl
@[simp] theorem startMap_txlog (s : State) : (startMap s).txlog = s.txlog := rfl
@[simp] theorem startMap_now (s : State) : (startMap s).now = s.now := rfl
@[simp] theorem startMap_script (s : State) : (startMap s).script = s.script := rfl
@[simp] theorem startMap_sink (s : State) : (startMap s).sink = s.sink := rfl
@[simp] theorem startMap_draws (s : State) : (startMap s).draws = s.draws + 1 := rfl
@[simp] theorem startMap_response (s : State) : (startMap s).response = s.response := rfl
@[simp] theorem startMap_offInterface (s : State) : (startMap s).offInterface = s.offInterface := rfl

/-! ### `startPack` -/

@[simp] theorem startPack_cfg (s : State) : (startPack s).cfg = s.cfg := rfl
@[simp] theorem startPack_cpkt (s : State) : (startPack s).cpkt = s.cpkt := rfl
@[simp] theorem startPack_fold (s : State) : (startPack s).fold = s.fold := rfl
@[simp] theorem startPack_rbv (s : State) : (startPack s).rbv = s.rbv := rfl
@[simp] theorem startPack_pkv (s : State) : (startPack s).pkv = false := rfl
@[simp] theorem startPack_wfv (s : State) : (startPack s).wfv = s.wfv := rfl
@[simp] theorem startPack_result (s : State) : (startPack s).result = s.result := rfl
@[simp] theorem startPack_einfo (s : State) : (startPack s).einfo = s.einfo := rfl
@[simp] theorem startPack_faults (s : State) : (startPack s).faults = s.faults := rfl
@[simp] theorem startPack_w (s : State) : (startPack s).w = s.w := rfl
@[simp] theorem startPack_h (s : State) : (startPack s).h = s.h := rfl
@[simp] theorem startPack_pw (s : State) : (startPack s).pw = s.pw := rfl
@[simp] theorem startPack_ph (s : State) : (startPack s).ph = s.ph := rfl
@[simp] theorem startPack_np (s : State) : (startPack s).np = s.np := rfl
@[simp] theorem startPack_maxchunk (s : State) : (startPack s).maxchunk = s.maxchunk := rfl
@[simp] theorem startPack_paceGap (s : State) : (startPack s).paceGap = s.paceGap := rfl
@[simp] theorem startPack_paceFrame (s : State) : (startPack s).paceFrame = s.paceFrame := rfl
@[simp] theorem startPack_rblen (s : State) : (startPack s).rblen = s.rblen := rfl
@[simp] theorem startPack_pklen (s : State) : (startPack s).pklen = s.pklen := rfl
@[simp] theorem startPack_wflen (s : State) : (startPack s).wflen = s.wflen := rfl
@[simp] theorem startPack_nchunk (s : State) : (startPack s).nchunk = s.nchunk := rfl
@[simp] theorem startPack_lut (s : State) : (startPack s).lut = s.lut := rfl
@[simp] theorem startPack_fb (s : State) : (startPack s).fb = s.fb := rfl
@[simp] theorem startPack_rb (s : State) : (startPack s).rb = s.rb := rfl
@[simp] theorem startPack_pkf (s : State) : (startPack s).pkf = s.pkf := rfl
@[simp] theorem startPack_wfr (s : State) : (startPack s).wfr = s.wfr := rfl
@[simp] theorem startPack_txReadyAt (s : State) : (startPack s).txReadyAt = s.txReadyAt := rfl
@[simp] theorem startPack_txlog (s : State) : (startPack s).txlog = s.txlog := rfl
@[simp] theorem startPack_now (s : State) : (startPack s).now = s.now := rfl
@[simp] theorem startPack_script (s : State) : (startPack s).script = s.script := rfl
@[simp] theorem startPack_sink (s : State) : (startPack s).sink = s.sink := rfl
@[simp] theorem startPack_draws (s : State) : (startPack s).draws = s.draws + 1 := rfl
@[simp] theorem startPack_response (s : State) : (startPack s).response = s.response := rfl
@[simp] theorem startPack_offInterface (s : State) : (startPack s).offInterface = s.offInterface := rfl

/-! ### `startFrame` -/

@[simp] theorem startFrame_cfg (s : State) : (startFrame s).cfg = s.cfg := rfl
@[simp] theorem startFrame_cpkt (s : State) : (startFrame s).cpkt = s.cpkt := rfl
@[simp] theorem startFrame_fold (s : State) : (startFrame s).fold = s.fold := rfl
@[simp] theorem startFrame_rbv (s : State) : (startFrame s).rbv = s.rbv := rfl
@[simp] theorem startFrame_pkv (s : State) : (startFrame s).pkv = s.pkv := rfl
@[simp] theorem startFrame_wfv (s : State) : (startFrame s).wfv = false := rfl
@[simp] theorem startFrame_result (s : State) : (startFrame s).result = s.result := rfl
@[simp] theorem startFrame_einfo (s : State) : (startFrame s).einfo = s.einfo := rfl
@[simp] theorem startFrame_faults (s : State) : (startFrame s).faults = s.faults := rfl
@[simp] theorem startFrame_w (s : State) : (startFrame s).w = s.w := rfl
@[simp] theorem startFrame_h (s : State) : (startFrame s).h = s.h := rfl
@[simp] theorem startFrame_pw (s : State) : (startFrame s).pw = s.pw := rfl
@[simp] theorem startFrame_ph (s : State) : (startFrame s).ph = s.ph := rfl
@[simp] theorem startFrame_np (s : State) : (startFrame s).np = s.np := rfl
@[simp] theorem startFrame_maxchunk (s : State) : (startFrame s).maxchunk = s.maxchunk := rfl
@[simp] theorem startFrame_paceGap (s : State) : (startFrame s).paceGap = s.paceGap := rfl
@[simp] theorem startFrame_paceFrame (s : State) : (startFrame s).paceFrame = s.paceFrame := rfl
@[simp] theorem startFrame_rblen (s : State) : (startFrame s).rblen = s.rblen := rfl
@[simp] theorem startFrame_pklen (s : State) : (startFrame s).pklen = s.pklen := rfl
@[simp] theorem startFrame_wflen (s : State) : (startFrame s).wflen = s.wflen := rfl
@[simp] theorem startFrame_nchunk (s : State) : (startFrame s).nchunk = s.nchunk := rfl
@[simp] theorem startFrame_lut (s : State) : (startFrame s).lut = s.lut := rfl
@[simp] theorem startFrame_fb (s : State) : (startFrame s).fb = s.fb := rfl
@[simp] theorem startFrame_rb (s : State) : (startFrame s).rb = s.rb := rfl
@[simp] theorem startFrame_pkf (s : State) : (startFrame s).pkf = s.pkf := rfl
@[simp] theorem startFrame_wfr (s : State) : (startFrame s).wfr = s.wfr := rfl
@[simp] theorem startFrame_txReadyAt (s : State) : (startFrame s).txReadyAt = s.txReadyAt := rfl
@[simp] theorem startFrame_txlog (s : State) : (startFrame s).txlog = s.txlog := rfl
@[simp] theorem startFrame_now (s : State) : (startFrame s).now = s.now := rfl
@[simp] theorem startFrame_script (s : State) : (startFrame s).script = s.script := rfl
@[simp] theorem startFrame_sink (s : State) : (startFrame s).sink = s.sink := rfl
@[simp] theorem startFrame_draws (s : State) : (startFrame s).draws = s.draws + 1 := rfl
@[simp] theorem startFrame_response (s : State) : (startFrame s).response = s.response := rfl
@[simp] theorem startFrame_offInterface (s : State) : (startFrame s).offInterface = s.offInterface := rfl

/-! ### `consumeRb` -/

@[simp] theorem consumeRb_cfg (s : State) : (consumeRb s).cfg = s.cfg := rfl
@[simp] theorem consumeRb_cpkt (s : State) : (consumeRb s).cpkt = s.cpkt := rfl
@[simp] theorem consumeRb_fold (s : State) : (consumeRb s).fold = s.fold := rfl
@[simp] theorem consumeRb_rbv (s : State) : (consumeRb s).rbv = false := rfl
@[simp] theorem consumeRb_pkv (s : State) : (consumeRb s).pkv = s.pkv := rfl
@[simp] theorem consumeRb_wfv (s : State) : (consumeRb s).wfv = s.wfv := rfl
@[simp] theorem consumeRb_result (s : State) : (consumeRb s).result = s.result := rfl
@[simp] theorem consumeRb_einfo (s : State) : (consumeRb s).einfo = s.einfo := rfl
@[simp] theorem consumeRb_faults (s : State) : (consumeRb s).faults = s.faults := rfl
@[simp] theorem consumeRb_w (s : State) : (consumeRb s).w = s.w := rfl
@[simp] theorem consumeRb_h (s : State) : (consumeRb s).h = s.h := rfl
@[simp] theorem consumeRb_pw (s : State) : (consumeRb s).pw = s.pw := rfl
@[simp] theorem consumeRb_ph (s : State) : (consumeRb s).ph = s.ph := rfl
@[simp] theorem consumeRb_np (s : State) : (consumeRb s).np = s.np := rfl
@[simp] theorem consumeRb_maxchunk (s : State) : (consumeRb s).maxchunk = s.maxchunk := rfl
@[simp] theorem consumeRb_paceGap (s : State) : (consumeRb s).paceGap = s.paceGap := rfl
@[simp] theorem consumeRb_paceFrame (s : State) : (consumeRb s).paceFrame = s.paceFrame := rfl
@[simp] theorem consumeRb_rblen (s : State) : (consumeRb s).rblen = s.rblen := rfl
@[simp] theorem consumeRb_pklen (s : State) : (consumeRb s).pklen = s.pklen := rfl
@[simp] theorem consumeRb_wflen (s : State) : (consumeRb s).wflen = s.wflen := rfl
@[simp] theorem consumeRb_nchunk (s : State) : (consumeRb s).nchunk = s.nchunk := rfl
@[simp] theorem consumeRb_lut (s : State) : (consumeRb s).lut = s.lut := rfl
@[simp] theorem consumeRb_fb (s : State) : (consumeRb s).fb = s.fb := rfl
@[simp] theorem consumeRb_rb (s : State) : (consumeRb s).rb = s.rb := rfl
@[simp] theorem consumeRb_pkf (s : State) : (consumeRb s).pkf = s.pkf := rfl
@[simp] theorem consumeRb_wfr (s : State) : (consumeRb s).wfr = s.wfr := rfl
@[simp] theorem consumeRb_txReadyAt (s : State) : (consumeRb s).txReadyAt = s.txReadyAt := rfl
@[simp] theorem consumeRb_txlog (s : State) : (consumeRb s).txlog = s.txlog := rfl
@[simp] theorem consumeRb_now (s : State) : (consumeRb s).now = s.now := rfl
@[simp] theorem consumeRb_script (s : State) : (consumeRb s).script = s.script := rfl
@[simp] theorem consumeRb_sink (s : State) : (consumeRb s).sink = s.sink := rfl
@[simp] theorem consumeRb_draws (s : State) : (consumeRb s).draws = s.draws := rfl
@[simp] theorem consumeRb_response (s : State) : (consumeRb s).response = s.response := rfl
@[simp] theorem consumeRb_offInterface (s : State) : (consumeRb s).offInterface = s.offInterface := rfl

/-! ### `consumePkf` -/

@[simp] theorem consumePkf_cfg (s : State) : (consumePkf s).cfg = s.cfg := rfl
@[simp] theorem consumePkf_cpkt (s : State) : (consumePkf s).cpkt = s.cpkt := rfl
@[simp] theorem consumePkf_fold (s : State) : (consumePkf s).fold = s.fold := rfl
@[simp] theorem consumePkf_rbv (s : State) : (consumePkf s).rbv = s.rbv := rfl
@[simp] theorem consumePkf_pkv (s : State) : (consumePkf s).pkv = false := rfl
@[simp] theorem consumePkf_wfv (s : State) : (consumePkf s).wfv = s.wfv := rfl
@[simp] theorem consumePkf_result (s : State) : (consumePkf s).result = s.result := rfl
@[simp] theorem consumePkf_einfo (s : State) : (consumePkf s).einfo = s.einfo := rfl
@[simp] theorem consumePkf_faults (s : State) : (consumePkf s).faults = s.faults := rfl
@[simp] theorem consumePkf_w (s : State) : (consumePkf s).w = s.w := rfl
@[simp] theorem consumePkf_h (s : State) : (consumePkf s).h = s.h := rfl
@[simp] theorem consumePkf_pw (s : State) : (consumePkf s).pw = s.pw := rfl
@[simp] theorem consumePkf_ph (s : State) : (consumePkf s).ph = s.ph := rfl
@[simp] theorem consumePkf_np (s : State) : (consumePkf s).np = s.np := rfl
@[simp] theorem consumePkf_maxchunk (s : State) : (consumePkf s).maxchunk = s.maxchunk := rfl
@[simp] theorem consumePkf_paceGap (s : State) : (consumePkf s).paceGap = s.paceGap := rfl
@[simp] theorem consumePkf_paceFrame (s : State) : (consumePkf s).paceFrame = s.paceFrame := rfl
@[simp] theorem consumePkf_rblen (s : State) : (consumePkf s).rblen = s.rblen := rfl
@[simp] theorem consumePkf_pklen (s : State) : (consumePkf s).pklen = s.pklen := rfl
@[simp] theorem consumePkf_wflen (s : State) : (consumePkf s).wflen = s.wflen := rfl
@[simp] theorem consumePkf_nchunk (s : State) : (consumePkf s).nchunk = s.nchunk := rfl
@[simp] theorem consumePkf_lut (s : State) : (consumePkf s).lut = s.lut := rfl
@[simp] theorem consumePkf_fb (s : State) : (consumePkf s).fb = s.fb := rfl
@[simp] theorem consumePkf_rb (s : State) : (consumePkf s).rb = s.rb := rfl
@[simp] theorem consumePkf_pkf (s : State) : (consumePkf s).pkf = s.pkf := rfl
@[simp] theorem consumePkf_wfr (s : State) : (consumePkf s).wfr = s.wfr := rfl
@[simp] theorem consumePkf_txReadyAt (s : State) : (consumePkf s).txReadyAt = s.txReadyAt := rfl
@[simp] theorem consumePkf_txlog (s : State) : (consumePkf s).txlog = s.txlog := rfl
@[simp] theorem consumePkf_now (s : State) : (consumePkf s).now = s.now := rfl
@[simp] theorem consumePkf_script (s : State) : (consumePkf s).script = s.script := rfl
@[simp] theorem consumePkf_sink (s : State) : (consumePkf s).sink = s.sink := rfl
@[simp] theorem consumePkf_draws (s : State) : (consumePkf s).draws = s.draws := rfl
@[simp] theorem consumePkf_response (s : State) : (consumePkf s).response = s.response := rfl
@[simp] theorem consumePkf_offInterface (s : State) : (consumePkf s).offInterface = s.offInterface := rfl

/-! ### `consumeWfr` -/

@[simp] theorem consumeWfr_cfg (s : State) : (consumeWfr s).cfg = s.cfg := rfl
@[simp] theorem consumeWfr_cpkt (s : State) : (consumeWfr s).cpkt = s.cpkt := rfl
@[simp] theorem consumeWfr_fold (s : State) : (consumeWfr s).fold = s.fold := rfl
@[simp] theorem consumeWfr_rbv (s : State) : (consumeWfr s).rbv = s.rbv := rfl
@[simp] theorem consumeWfr_pkv (s : State) : (consumeWfr s).pkv = s.pkv := rfl
@[simp] theorem consumeWfr_wfv (s : State) : (consumeWfr s).wfv = false := rfl
@[simp] theorem consumeWfr_result (s : State) : (consumeWfr s).result = s.result := rfl
@[simp] theorem consumeWfr_einfo (s : State) : (consumeWfr s).einfo = s.einfo := rfl
@[simp] theorem consumeWfr_faults (s : State) : (consumeWfr s).faults = s.faults := rfl
@[simp] theorem consumeWfr_w (s : State) : (consumeWfr s).w = s.w := rfl
@[simp] theorem consumeWfr_h (s : State) : (consumeWfr s).h = s.h := rfl
@[simp] theorem consumeWfr_pw (s : State) : (consumeWfr s).pw = s.pw := rfl
@[simp] theorem consumeWfr_ph (s : State) : (consumeWfr s).ph = s.ph := rfl
@[simp] theorem consumeWfr_np (s : State) : (consumeWfr s).np = s.np := rfl
@[simp] theorem consumeWfr_maxchunk (s : State) : (consumeWfr s).maxchunk = s.maxchunk := rfl
@[simp] theorem consumeWfr_paceGap (s : State) : (consumeWfr s).paceGap = s.paceGap := rfl
@[simp] theorem consumeWfr_paceFrame (s : State) : (consumeWfr s).paceFrame = s.paceFrame := rfl
@[simp] theorem consumeWfr_rblen (s : State) : (consumeWfr s).rblen = s.rblen := rfl
@[simp] theorem consumeWfr_pklen (s : State) : (consumeWfr s).pklen = s.pklen := rfl
@[simp] theorem consumeWfr_wflen (s : State) : (consumeWfr s).wflen = s.wflen := rfl
@[simp] theorem consumeWfr_nchunk (s : State) : (consumeWfr s).nchunk = 0 := rfl
@[simp] theorem consumeWfr_lut (s : State) : (consumeWfr s).lut = s.lut := rfl
@[simp] theorem consumeWfr_fb (s : State) : (consumeWfr s).fb = s.fb := rfl
@[simp] theorem consumeWfr_rb (s : State) : (consumeWfr s).rb = s.rb := rfl
@[simp] theorem consumeWfr_pkf (s : State) : (consumeWfr s).pkf = s.pkf := rfl
@[simp] theorem consumeWfr_wfr (s : State) : (consumeWfr s).wfr = s.wfr := rfl
@[simp] theorem consumeWfr_txReadyAt (s : State) : (consumeWfr s).txReadyAt = s.txReadyAt := rfl
@[simp] theorem consumeWfr_txlog (s : State) : (consumeWfr s).txlog = s.txlog := rfl
@[simp] theorem consumeWfr_now (s : State) : (consumeWfr s).now = s.now := rfl
@[simp] theorem consumeWfr_script (s : State) : (consumeWfr s).script = s.script := rfl
@[simp] theorem consumeWfr_sink (s : State) : (consumeWfr s).sink = s.sink := rfl
@[simp] theorem consumeWfr_draws (s : State) : (consumeWfr s).draws = s.draws + 1 := rfl
@[simp] theorem consumeWfr_response (s : State) : (consumeWfr s).response = s.response := rfl
@[simp] theorem consumeWfr_offInterface (s : State) : (consumeWfr s).offInterface = s.offInterface := rfl

/-! ### `markUnless` -/

@[simp] theorem markUnless_cfg (ok : Bool) (s : State) : (markUnless ok s).cfg = s.cfg := rfl
@[simp] theorem markUnless_cpkt (ok : Bool) (s : State) : (markUnless ok s).cpkt = s.cpkt := rfl
@[simp] theorem markUnless_fold (ok : Bool) (s : State) : (markUnless ok s).fold = s.fold := rfl
@[simp] theorem markUnless_rbv (ok : Bool) (s : State) : (markUnless ok s).rbv = s.rbv := rfl
@[simp] theorem markUnless_pkv (ok : Bool) (s : State) : (markUnless ok s).pkv = s.pkv := rfl
@[simp] theorem markUnless_wfv (ok : Bool) (s : State) : (markUnless ok s).wfv = s.wfv := rfl
@[simp] theorem markUnless_result (ok : Bool) (s : State) : (markUnless ok s).result = s.result := rfl
@[simp] theorem markUnless_einfo (ok : Bool) (s : State) : (markUnless ok s).einfo = s.einfo := rfl
@[simp] theorem markUnless_faults (ok : Bool) (s : State) : (markUnless ok s).faults = s.faults := rfl
@[simp] theorem markUnless_w (ok : Bool) (s : State) : (markUnless ok s).w = s.w := rfl
@[simp] theorem markUnless_h (ok : Bool) (s : State) : (markUnless ok s).h = s.h := rfl
@[simp] theorem markUnless_pw (ok : Bool) (s : State) : (markUnless ok s).pw = s.pw := rfl
@[simp] theorem markUnless_ph (ok : Bool) (s : State) : (markUnless ok s).ph = s.ph := rfl
@[simp] theorem markUnless_np (ok : Bool) (s : State) : (markUnless ok s).np = s.np := rfl
@[simp] theorem markUnless_maxchunk (ok : Bool) (s : State) : (markUnless ok s).maxchunk = s.maxchunk := rfl
@[simp] theorem markUnless_paceGap (ok : Bool) (s : State) : (markUnless ok s).paceGap = s.paceGap := rfl
@[simp] theorem markUnless_paceFrame (ok : Bool) (s : State) : (markUnless ok s).paceFrame = s.paceFrame := rfl
@[simp] theorem markUnless_rblen (ok : Bool) (s : State) : (markUnless ok s).rblen = s.rblen := rfl
@[simp] theorem markUnless_pklen (ok : Bool) (s : State) : (markUnless ok s).pklen = s.pklen := rfl
@[simp] theorem markUnless_wflen (ok : Bool) (s : State) : (markUnless ok s).wflen = s.wflen := rfl
@[simp] theorem markUnless_nchunk (ok : Bool) (s : State) : (markUnless ok s).nchunk = s.nchunk := rfl
@[simp] theorem markUnless_lut (ok : Bool) (s : State) : (markUnless ok s).lut = s.lut := rfl
@[simp] theorem markUnless_fb (ok : Bool) (s : State) : (markUnless ok s).fb = s.fb := rfl
@[simp] theorem markUnless_rb (ok : Bool) (s : State) : (markUnless ok s).rb = s.rb := rfl
@[simp] theorem markUnless_pkf (ok : Bool) (s : State) : (markUnless ok s).pkf = s.pkf := rfl
@[simp] theorem markUnless_wfr (ok : Bool) (s : State) : (markUnless ok s).wfr = s.wfr := rfl
@[simp] theorem markUnless_txReadyAt (ok : Bool) (s : State) : (markUnless ok s).txReadyAt = s.txReadyAt := rfl
@[simp] theorem markUnless_txlog (ok : Bool) (s : State) : (markUnless ok s).txlog = s.txlog := rfl
@[simp] theorem markUnless_now (ok : Bool) (s : State) : (markUnless ok s).now = s.now := rfl
@[simp] theorem markUnless_script (ok : Bool) (s : State) : (markUnless ok s).script = s.script := rfl
@[simp] theorem markUnless_sink (ok : Bool) (s : State) : (markUnless ok s).sink = s.sink := rfl
@[simp] theorem markUnless_draws (ok : Bool) (s : State) : (markUnless ok s).draws = s.draws := rfl
@[simp] theorem markUnless_response (ok : Bool) (s : State) : (markUnless ok s).response = s.response := rfl
@[simp] theorem markUnless_offInterface (ok : Bool) (s : State) : (markUnless ok s).offInterface = (s.offInterface || !ok) := rfl

/-! ### `respond` -/

@[simp] theorem respond_cfg (r : Response) (s : State) : (respond r s).cfg = s.cfg := rfl
@[simp] theorem respond_cpkt (r : Response) (s : State) : (respond r s).cpkt = s.cpkt := rfl
@[simp] theorem respond_fold (r : Response) (s : State) : (respond r s).fold = s.fold := rfl
@[simp] theorem respond_rbv (r : Response) (s : State) : (respond r s).rbv = s.rbv := rfl
@[simp] theorem respond_pkv (r : Response) (s : State) : (respond r s).pkv = s.pkv := rfl
@[simp] theorem respond_wfv (r : Response) (s : State) : (respond r s).wfv = s.wfv := rfl
@[simp] theorem respond_result (r : Response) (s : State) : (respond r s).result = s.result := rfl
@[simp] theorem respond_einfo (r : Response) (s : State) : (respond r s).einfo = s.einfo := rfl
@[simp] theorem respond_faults (r : Response) (s : State) : (respond r s).faults = s.faults := rfl
@[simp] theorem respond_w (r : Response) (s : State) : (respond r s).w = s.w := rfl
@[simp] theorem respond_h (r : Response) (s : State) : (respond r s).h = s.h := rfl
@[simp] theorem respond_pw (r : Response) (s : State) : (respond r s).pw = s.pw := rfl
@[simp] theorem respond_ph (r : Response) (s : State) : (respond r s).ph = s.ph := rfl
@[simp] theorem respond_np (r : Response) (s : State) : (respond r s).np = s.np := rfl
@[simp] theorem respond_maxchunk (r : Response) (s : State) : (respond r s).maxchunk = s.maxchunk := rfl
@[simp] theorem respond_paceGap (r : Response) (s : State) : (respond r s).paceGap = s.paceGap := rfl
@[simp] theorem respond_paceFrame (r : Response) (s : State) : (respond r s).paceFrame = s.paceFrame := rfl
@[simp] theorem respond_rblen (r : Response) (s : State) : (respond r s).rblen = s.rblen := rfl
@[simp] theorem respond_pklen (r : Response) (s : State) : (respond r s).pklen = s.pklen := rfl
@[simp] theorem respond_wflen (r : Response) (s : State) : (respond r s).wflen = s.wflen := rfl
@[simp] theorem respond_nchunk (r : Response) (s : State) : (respond r s).nchunk = s.nchunk := rfl
@[simp] theorem respond_lut (r : Response) (s : State) : (respond r s).lut = s.lut := rfl
@[simp] theorem respond_fb (r : Response) (s : State) : (respond r s).fb = s.fb := rfl
@[simp] theorem respond_rb (r : Response) (s : State) : (respond r s).rb = s.rb := rfl
@[simp] theorem respond_pkf (r : Response) (s : State) : (respond r s).pkf = s.pkf := rfl
@[simp] theorem respond_wfr (r : Response) (s : State) : (respond r s).wfr = s.wfr := rfl
@[simp] theorem respond_txReadyAt (r : Response) (s : State) : (respond r s).txReadyAt = s.txReadyAt := rfl
@[simp] theorem respond_txlog (r : Response) (s : State) : (respond r s).txlog = s.txlog := rfl
@[simp] theorem respond_now (r : Response) (s : State) : (respond r s).now = s.now := rfl
@[simp] theorem respond_script (r : Response) (s : State) : (respond r s).script = s.script := rfl
@[simp] theorem respond_sink (r : Response) (s : State) : (respond r s).sink = s.sink := rfl
@[simp] theorem respond_draws (r : Response) (s : State) : (respond r s).draws = s.draws := rfl
@[simp] theorem respond_response (r : Response) (s : State) : (respond r s).response = r := rfl
@[simp] theorem respond_offInterface (r : Response) (s : State) : (respond r s).offInterface = s.offInterface := rfl

/-! ### `applyReset` -/

@[simp] theorem applyReset_cfg (s : State) : (applyReset s).cfg = State.reset.cfg := rfl
@[simp] theorem applyReset_cpkt (s : State) : (applyReset s).cpkt = State.reset.cpkt := rfl
@[simp] theorem applyReset_fold (s : State) : (applyReset s).fold = State.reset.fold := rfl
@[simp] theorem applyReset_rbv (s : State) : (applyReset s).rbv = State.reset.rbv := rfl
@[simp] theorem applyReset_pkv (s : State) : (applyReset s).pkv = State.reset.pkv := rfl
@[simp] theorem applyReset_wfv (s : State) : (applyReset s).wfv = State.reset.wfv := rfl
@[simp] theorem applyReset_result (s : State) : (applyReset s).result = State.reset.result := rfl
@[simp] theorem applyReset_einfo (s : State) : (applyReset s).einfo = State.reset.einfo := rfl
@[simp] theorem applyReset_faults (s : State) : (applyReset s).faults = State.reset.faults := rfl
@[simp] theorem applyReset_w (s : State) : (applyReset s).w = State.reset.w := rfl
@[simp] theorem applyReset_h (s : State) : (applyReset s).h = State.reset.h := rfl
@[simp] theorem applyReset_pw (s : State) : (applyReset s).pw = State.reset.pw := rfl
@[simp] theorem applyReset_ph (s : State) : (applyReset s).ph = State.reset.ph := rfl
@[simp] theorem applyReset_np (s : State) : (applyReset s).np = State.reset.np := rfl
@[simp] theorem applyReset_maxchunk (s : State) : (applyReset s).maxchunk = State.reset.maxchunk := rfl
@[simp] theorem applyReset_paceGap (s : State) : (applyReset s).paceGap = State.reset.paceGap := rfl
@[simp] theorem applyReset_paceFrame (s : State) : (applyReset s).paceFrame = State.reset.paceFrame := rfl
@[simp] theorem applyReset_rblen (s : State) : (applyReset s).rblen = State.reset.rblen := rfl
@[simp] theorem applyReset_pklen (s : State) : (applyReset s).pklen = State.reset.pklen := rfl
@[simp] theorem applyReset_wflen (s : State) : (applyReset s).wflen = State.reset.wflen := rfl
@[simp] theorem applyReset_nchunk (s : State) : (applyReset s).nchunk = State.reset.nchunk := rfl
@[simp] theorem applyReset_lut (s : State) : (applyReset s).lut = State.reset.lut := rfl
@[simp] theorem applyReset_fb (s : State) : (applyReset s).fb = State.reset.fb := rfl
@[simp] theorem applyReset_rb (s : State) : (applyReset s).rb = State.reset.rb := rfl
@[simp] theorem applyReset_pkf (s : State) : (applyReset s).pkf = State.reset.pkf := rfl
@[simp] theorem applyReset_wfr (s : State) : (applyReset s).wfr = State.reset.wfr := rfl
@[simp] theorem applyReset_txReadyAt (s : State) : (applyReset s).txReadyAt = s.now := rfl
@[simp] theorem applyReset_txlog (s : State) : (applyReset s).txlog = State.reset.txlog := rfl
@[simp] theorem applyReset_now (s : State) : (applyReset s).now = s.now := rfl
@[simp] theorem applyReset_script (s : State) : (applyReset s).script = s.script := rfl
@[simp] theorem applyReset_sink (s : State) : (applyReset s).sink = s.sink := rfl
@[simp] theorem applyReset_draws (s : State) : (applyReset s).draws = s.draws := rfl
@[simp] theorem applyReset_response (s : State) : (applyReset s).response = State.reset.response := rfl
@[simp] theorem applyReset_offInterface (s : State) : (applyReset s).offInterface = State.reset.offInterface := rfl

/-! ### The FAULTS bit of each error (R37) -/

@[simp] theorem setFaultBit_enc (f : Byte) : setFaultBit f (errCode .enc) = f ||| 0x02 := rfl
@[simp] theorem setFaultBit_xport (f : Byte) : setFaultBit f (errCode .xport) = f ||| 0x04 := rfl
@[simp] theorem setFaultBit_layout (f : Byte) : setFaultBit f (errCode .layout) = f ||| 0x08 := rfl
@[simp] theorem setFaultBit_seq (f : Byte) : setFaultBit f (errCode .seq) = f ||| 0x10 := rfl
@[simp] theorem setFaultBit_param (f : Byte) : setFaultBit f (errCode .param) = f ||| 0x20 := rfl
@[simp] theorem setFaultBit_cmd (f : Byte) : setFaultBit f (errCode .cmd) = f ||| 0x40 := rfl
@[simp] theorem setFaultBit_chk (f : Byte) : setFaultBit f (errCode .chk) = f ||| 0x80 := rfl

/-- An error code is 1 to 7 (R200). -/
theorem errCode_range (e : ErrKind) : 1 ≤ (errCode e).toNat ∧ (errCode e).toNat ≤ 7 := by cases e <;> decide

theorem errCode_ne_zero (e : ErrKind) : errCode e ≠ 0 := by cases e <;> decide

/-! ### The state after reset -/

@[simp] theorem reset_cfg : State.reset.cfg = Vector.replicate 12 0 := rfl
@[simp] theorem reset_cpkt : State.reset.cpkt = Vector.replicate 13 0 := rfl
@[simp] theorem reset_fold : State.reset.fold = 0 := rfl
@[simp] theorem reset_rbv : State.reset.rbv = false := rfl
@[simp] theorem reset_pkv : State.reset.pkv = false := rfl
@[simp] theorem reset_wfv : State.reset.wfv = false := rfl
@[simp] theorem reset_result : State.reset.result = 0 := rfl
@[simp] theorem reset_einfo : State.reset.einfo = 0 := rfl
@[simp] theorem reset_faults : State.reset.faults = 0 := rfl
@[simp] theorem reset_w : State.reset.w = 0 := rfl
@[simp] theorem reset_h : State.reset.h = 0 := rfl
@[simp] theorem reset_pw : State.reset.pw = 0 := rfl
@[simp] theorem reset_ph : State.reset.ph = 0 := rfl
@[simp] theorem reset_np : State.reset.np = 0 := rfl
@[simp] theorem reset_maxchunk : State.reset.maxchunk = 0 := rfl
@[simp] theorem reset_paceGap : State.reset.paceGap = 0 := rfl
@[simp] theorem reset_paceFrame : State.reset.paceFrame = 0 := rfl
@[simp] theorem reset_rblen : State.reset.rblen = 0 := rfl
@[simp] theorem reset_pklen : State.reset.pklen = 0 := rfl
@[simp] theorem reset_wflen : State.reset.wflen = 0 := rfl
@[simp] theorem reset_nchunk : State.reset.nchunk = 0 := rfl
@[simp] theorem reset_lut : State.reset.lut = [] := rfl
@[simp] theorem reset_fb : State.reset.fb = [] := rfl
@[simp] theorem reset_rb : State.reset.rb = [] := rfl
@[simp] theorem reset_pkf : State.reset.pkf = [] := rfl
@[simp] theorem reset_wfr : State.reset.wfr = [] := rfl
@[simp] theorem reset_txReadyAt : State.reset.txReadyAt = 0 := rfl
@[simp] theorem reset_txlog : State.reset.txlog = [] := rfl
@[simp] theorem reset_now : State.reset.now = 0 := rfl
@[simp] theorem reset_script : State.reset.script = [] := rfl
@[simp] theorem reset_sink : State.reset.sink = [] := rfl
@[simp] theorem reset_draws : State.reset.draws = 0 := rfl
@[simp] theorem reset_response : State.reset.response = .nothing := rfl
@[simp] theorem reset_offInterface : State.reset.offInterface = false := rfl

end Sys2Proof.Machine
end

