-- ==== Sys2Proof/Laws/Checksum.lean ====
section
/-! SUPPORT. The folds of the CFU. -/

namespace Sys2Proof.Machine

theorem foldl_xor (bytes : List Byte) (c : Byte) :
    bytes.foldl (fun c b => c ^^^ b) c = c ^^^ ufold bytes := by
  induction bytes generalizing c with
  | nil => simp [ufold]
  | cons b bytes ih =>
    have h : ufold (b :: bytes) = b ^^^ ufold bytes := by
      unfold ufold
      rw [List.foldl_cons, ih, show (0 : Byte) ^^^ b = b from BitVec.zero_xor]; rfl
    rw [List.foldl_cons, ih, h, BitVec.xor_assoc]

/-- `sfold(s) = 0xAA xor ufold(s)` (R111). -/
theorem sfold_eq (bytes : List Byte) : sfold bytes = 0xAA ^^^ ufold bytes := foldl_xor bytes _

@[simp] theorem ufold_nil : ufold [] = 0 := rfl

theorem ufold_cons (b : Byte) (bytes : List Byte) : ufold (b :: bytes) = b ^^^ ufold bytes := by
  rw [ufold, List.foldl_cons, foldl_xor, show (0 : Byte) ^^^ b = b from BitVec.zero_xor]

theorem ufold_append (xs ys : List Byte) : ufold (xs ++ ys) = ufold xs ^^^ ufold ys := by
  rw [ufold, List.foldl_append, foldl_xor]; rfl

/-- The fold does not depend on the order of the bytes (R111). -/
theorem ufold_perm {xs ys : List Byte} (h : xs.Perm ys) : ufold xs = ufold ys := by
  induction h with
  | nil => rfl
  | cons b _ ih => rw [ufold_cons, ufold_cons, ih]
  | swap a b l => rw [ufold_cons, ufold_cons, ufold_cons, ufold_cons, ← BitVec.xor_assoc, BitVec.xor_comm b a,
      BitVec.xor_assoc]
  | trans _ _ h₁ h₂ => exact h₁.trans h₂

/-- Changing one byte changes the fold by the same difference (R117). -/
theorem ufold_set (bytes : List Byte) (i : Nat) (b : Byte) (h : i < bytes.length) :
    ufold (bytes.set i b) = ufold bytes ^^^ (b ^^^ bytes[i]) := by
  induction bytes generalizing i with
  | nil => simp at h
  | cons a bytes ih =>
    cases i with
    | zero =>
      simp only [List.set_cons_zero, ufold_cons, List.getElem_cons_zero]
      rw [BitVec.xor_comm (a ^^^ _), ← BitVec.xor_assoc, BitVec.xor_assoc b a a, BitVec.xor_self, BitVec.xor_zero]
    | succ i =>
      simp only [List.set_cons_succ, ufold_cons, List.getElem_cons_succ]
      rw [ih i (by simpa using h), BitVec.xor_assoc]

/-! ### The packet CFGBUILD builds (R112) -/

@[simp] theorem configPacket_zero (cfg : Vector Byte 12) : (configPacket cfg)[0] = sfold cfg.toList := by
  unfold configPacket
  rw [Vector.getElem_cast, Vector.getElem_append_left (by decide)]
  rfl

@[simp] theorem configPacket_succ (cfg : Vector Byte 12) (i : Nat) (h : i < 12) :
    (configPacket cfg)[i + 1] = cfg[i] := by
  unfold configPacket
  rw [Vector.getElem_cast, Vector.getElem_append_right (by omega) (by omega)]
  rfl

theorem configPacket_toList (cfg : Vector Byte 12) :
    (configPacket cfg).toList = sfold cfg.toList :: cfg.toList := by
  apply List.ext_getElem
  · simp
  · intro i h _
    cases i with
    | zero => simp
    | succ i =>
      have h' : i + 1 < 13 := by simpa using h
      simp [configPacket_succ cfg i (by omega)]

/-! ### The two ends of CFGCHECK (R113) -/

theorem execCfgcheck_ok {s : State} (h : sfold s.cpkt.toList = 0) :
    execCfgcheck s = .next (done { s with fold := 0 }) := by
  simp only [execCfgcheck, h, if_true]

theorem execCfgcheck_bad {s : State} (h : sfold s.cpkt.toList ≠ 0) :
    execCfgcheck s =
      .next (raise .chk ((sfold s.cpkt.toList).setWidth 32) { s with fold := sfold s.cpkt.toList }) := by
  simp only [execCfgcheck, if_neg h]

end Sys2Proof.Machine
end

