-- ==== Sys2Proof/Laws/Memory.lean ====
section
/-! SUPPORT. A memory's read and write: a read after a write, and the canonical form. -/

namespace Sys2Proof.Machine

variable {n : Nat}

@[simp] theorem Memory.read_nil (i : Nat) : Memory.read ([] : Memory n) i = none := rfl

theorem Memory.read_write (m : Memory n) (i j : Nat) (v : BitVec n) :
    (Memory.write m i v).read j = if j = i then some v else m.read j := by
  induction m with
  | nil => by_cases h : i = j <;> simp [Memory.write, Memory.read, h, eq_comm]
  | cons c rest ih =>
    obtain ⟨a, u⟩ := c
    simp only [Memory.write]
    rcases lt_trichotomy i a with h | h | h
    · rw [if_pos h]
      simp only [Memory.read]
      split_ifs <;> first | rfl | omega
    · subst h
      rw [if_neg (lt_irrefl i), if_pos rfl]
      simp only [Memory.read]
      split_ifs <;> first | rfl | omega
    · rw [if_neg (by omega), if_neg (by omega)]
      simp only [Memory.read, ih]
      split_ifs <;> first | rfl | omega

@[simp] theorem Memory.read_write_same (m : Memory n) (i : Nat) (v : BitVec n) :
    (Memory.write m i v).read i = some v := by
  simp [Memory.read_write]

theorem Memory.read_write_other (m : Memory n) {i j : Nat} (v : BitVec n) (h : j ≠ i) :
    (Memory.write m i v).read j = m.read j := by
  simp [Memory.read_write, h]

theorem Memory.mem_write {m : Memory n} {i : Nat} {v : BitVec n} {c : Nat × BitVec n}
    (h : c ∈ Memory.write m i v) : c = (i, v) ∨ c ∈ m := by
  induction m with
  | nil => simpa [Memory.write] using h
  | cons d rest ih =>
    unfold Memory.write at h
    split at h
    · simpa using h
    · split at h
      · rcases List.mem_cons.1 h with h | h
        · exact .inl h
        · exact .inr (List.mem_cons_of_mem _ h)
      · rcases List.mem_cons.1 h with h | h
        · exact .inr (h ▸ List.mem_cons_self ..)
        · exact (ih h).imp_right (List.mem_cons_of_mem _)

theorem Memory.wf_write {m : Memory n} (hm : m.wf) (i : Nat) (v : BitVec n) : (Memory.write m i v).wf := by
  induction m with
  | nil => simp [Memory.write, Memory.wf]
  | cons c rest ih =>
    obtain ⟨a, u⟩ := c
    obtain ⟨hhead, htail⟩ := List.pairwise_cons.1 hm
    unfold Memory.write
    split
    · rename_i hlt
      refine List.pairwise_cons.2 ⟨fun d hd => ?_, hm⟩
      rcases List.mem_cons.1 hd with rfl | hd
      · exact hlt
      · exact Nat.lt_trans hlt (hhead d hd)
    · split
      · rename_i heq
        exact List.pairwise_cons.2 ⟨fun d hd => heq ▸ hhead d hd, htail⟩
      · refine List.pairwise_cons.2 ⟨fun d hd => ?_, ih htail⟩
        rcases Memory.mem_write hd with rfl | hd
        · show a < i
          omega
        · exact hhead d hd

theorem Memory.below_write {m : Memory n} {cap : Nat} (hm : m.below cap) {i : Nat} (hi : i < cap) (v : BitVec n) :
    (Memory.write m i v).below cap := by
  intro c hc
  rcases Memory.mem_write hc with rfl | hc
  · exact hi
  · exact hm c hc

theorem Memory.read_writeFrom (vs : List (BitVec n)) (m : Memory n) (i j : Nat) :
    (m.writeFrom i vs).read j = if i ≤ j then (vs[j - i]?).or (m.read j) else m.read j := by
  induction vs generalizing m i with
  | nil => simp [Memory.writeFrom]
  | cons v vs ih =>
    rw [Memory.writeFrom, ih, Memory.read_write]
    by_cases h : i + 1 ≤ j
    · obtain ⟨k, rfl⟩ := Nat.exists_eq_add_of_le h
      have h1 : i + 1 + k - (i + 1) = k := by omega
      have h2 : i + 1 + k - i = k + 1 := by omega
      have h3 : ¬ i + 1 + k = i := by omega
      have h4 : i ≤ i + 1 + k := by omega
      simp [h1, h2, h3, h4]
    · by_cases h' : j = i
      · subst h'; simp
      · have h1 : ¬ i ≤ j := by omega
        simp [h, h', h1]

/-- A cell inside the bytes written from 0 on. -/
theorem Memory.read_writeFrom_lt {vs : List (BitVec n)} (m : Memory n) {j : Nat} (h : j < vs.length) :
    (m.writeFrom 0 vs).read j = some vs[j] := by
  simp [Memory.read_writeFrom, List.getElem?_eq_getElem h]

/-- A cell past the bytes written from 0 on. -/
theorem Memory.read_writeFrom_ge {vs : List (BitVec n)} (m : Memory n) {j : Nat} (h : vs.length ≤ j) :
    (m.writeFrom 0 vs).read j = m.read j := by
  simp [Memory.read_writeFrom, List.getElem?_eq_none h]

theorem Memory.wf_writeFrom (vs : List (BitVec n)) {m : Memory n} (hm : m.wf) (i : Nat) :
    (m.writeFrom i vs).wf := by
  induction vs generalizing m i with
  | nil => exact hm
  | cons v vs ih => exact ih (Memory.wf_write hm i v) (i + 1)

theorem Memory.below_writeFrom (vs : List (BitVec n)) {m : Memory n} {cap : Nat} (hm : m.below cap) {i : Nat}
    (hi : i + vs.length ≤ cap) : (m.writeFrom i vs).below cap := by
  induction vs generalizing m i with
  | nil => exact hm
  | cons v vs ih =>
    rw [List.length_cons] at hi
    exact ih (Memory.below_write hm (by omega) v) (by omega)

end Sys2Proof.Machine
end

