-- ==== Sys2Proof/Laws/Pack.lean ====
section
/-! SUPPORT. The GEU: the bits of a mask byte, the encoder never fails, and what PACK and FRAME leave. -/

namespace Sys2Proof.Machine

/-- The bits that the fold of `groupMask` sets among the first `m`. -/
theorem getLsbD_foldl_bits (p : Nat → Prop) [DecidablePred p] (m i : Nat) (hm : m ≤ 8) :
    ((List.range m).foldl (fun (b : Byte) k => if p k then b ||| BitVec.twoPow 8 k else b) 0).getLsbD i =
      decide (i < m ∧ p i) := by
  induction m with
  | zero => simp
  | succ m ih =>
    rw [List.range_succ, List.foldl_append]
    simp only [List.foldl_cons, List.foldl_nil]
    have ih := ih (by omega)
    by_cases hp : p m
    · rw [if_pos hp, BitVec.getLsbD_or, ih, BitVec.getLsbD_twoPow]
      rcases Nat.lt_trichotomy i m with h | h | h
      · have h1 : i < m + 1 := by omega
        have h2 : ¬ m = i := by omega
        simp [h, h1, h2]
      · subst h
        have h1 : i < 8 := by omega
        simp [hp, h1]
      · have h1 : ¬ i < m + 1 := by omega
        have h2 : ¬ i < m := by omega
        have h3 : ¬ m = i := by omega
        simp [h1, h2, h3]
    · rw [if_neg hp, ih]
      by_cases h : i = m
      · subst h; simp [hp]
      · have h1 : i < m + 1 ↔ i < m := by omega
        simp [h1]

/-- Bit `k` of a mask byte speaks for pixel `7g + k` (R132). -/
theorem groupMask_bit (n : Nat) (pixel : Nat → Byte) (g k : Nat) :
    (groupMask n pixel g).getLsbD k = decide (k < 7 ∧ 7 * g + k < n ∧ isOn (pixel (7 * g + k)) = true) :=
  getLsbD_foldl_bits (fun k => 7 * g + k < n ∧ isOn (pixel (7 * g + k)) = true) 7 k (by decide)

@[simp] theorem groupMask_bit7 (n : Nat) (pixel : Nat → Byte) (g : Nat) :
    (groupMask n pixel g)[7] = false := by
  rw [← BitVec.getLsbD_eq_getElem, groupMask_bit]; simp

theorem isOn_iff (b : Byte) : isOn b = true ↔ b ≠ 0 := by
  simp [isOn, Nat.pos_iff_ne_zero, BitVec.toNat_eq]

/-- The encoder never reports a byte with bit 7 set (R134). -/
theorem encodeGroups_ok (n : Nat) (pixel : Nat → Byte) (left g : Nat) :
    encodeGroups n pixel g left = .ok ((List.range left).map fun k => groupMask n pixel (g + k)) := by
  induction left generalizing g with
  | zero => rfl
  | succ left ih =>
    have h7 : (groupMask n pixel g).getLsbD 7 = false := by rw [groupMask_bit]; simp
    simp only [encodeGroups, h7, ih, Bool.false_eq_true, if_false]
    rw [List.range_succ_eq_map]
    simp [Nat.add_assoc, Nat.add_comm 1]

/-- The mask bytes of `n` pixels. -/
def maskBytes (n : Nat) (pixel : Nat → Byte) : List Byte :=
  (List.range (ceilDiv n 7)).map (groupMask n pixel)

@[simp] theorem length_maskBytes (n : Nat) (pixel : Nat → Byte) :
    (maskBytes n pixel).length = ceilDiv n 7 := by simp [maskBytes]

/-- The body of PACK always ends OK. -/
theorem packPixels_eq (n : Nat) (pixel : Nat → Byte) (s : State) :
    packPixels n pixel s = done { s with
      pkf := s.pkf.writeFrom 0 (Config.im :: maskBytes n pixel)
      pklen := BitVec.ofNat 32 (1 + ceilDiv n 7)
      pkv := true } := by
  simp [packPixels, encodeGroups_ok, Config.group, maskBytes]

/-- PACK on an accepted source. -/
theorem packStage_ok {src : Src} {s : State} (hrb : src = .reorder → s.rbv = true)
    (hfb : src = .canvas → pixelCount s ≤ Config.fbDepth) :
    packStage src s = done { s with
      rbv := if src = .reorder then false else s.rbv
      pkf := s.pkf.writeFrom 0 (Config.im :: maskBytes (packCount src s) (packPixel src s))
      pklen := BitVec.ofNat 32 (1 + ceilDiv (packCount src s) 7)
      pkv := true
      draws := s.draws + 1 } := by
  cases src with
  | reorder => simp [packStage, hrb rfl, packPixels_eq, consumeRb, startPack]
  | canvas =>
    have h : ¬ Config.fbDepth < packCount .canvas s := Nat.not_lt.2 (hfb rfl)
    simp [packStage, h, packPixels_eq, startPack]

/-- PACK on a source it does not accept. -/
theorem packStage_noRb {s : State} (h : s.rbv = false) :
    packStage .reorder s = raise .seq 0 { startPack s with pkf := [] } := by
  simp [packStage, h]

theorem packStage_tooLarge {s : State} (h : Config.fbDepth < pixelCount s) :
    packStage .canvas s = raise .param 1 { startPack s with pkf := [] } := by
  have h' : Config.fbDepth < packCount .canvas s := h
  simp [packStage, h']

/-- The three ways PACK can end. -/
theorem packStage_cases (src : Src) (s : State) :
    ((src = .reorder → s.rbv = true) ∧ (src = .canvas → pixelCount s ≤ Config.fbDepth)) ∨
    (src = .reorder ∧ s.rbv = false) ∨ (src = .canvas ∧ Config.fbDepth < pixelCount s) := by
  cases src with
  | reorder => cases h : s.rbv <;> simp
  | canvas => simpa using le_or_gt _ _

theorem frameStage_ok {s : State} (h : s.pkv = true) :
    frameStage s = done { s with
      pkv := false
      wfr := s.wfr.writeFrom 0 (Config.om :: packedBytes s)
      wflen := BitVec.ofNat 32 (s.pklen.toNat + 1)
      wfv := true
      draws := s.draws + 1 } := by
  simp [frameStage, h, consumePkf, startFrame]

theorem frameStage_noPkf {s : State} (h : s.pkv = false) :
    frameStage s = raise .seq 1 { startFrame s with wfr := [] } := by
  simp [frameStage, h]

@[simp] theorem length_packedBytes (s : State) : (packedBytes s).length = s.pklen.toNat := by simp [packedBytes]

@[simp] theorem length_wireBytes (s : State) : (wireBytes s).length = s.wflen.toNat := by simp [wireBytes]

end Sys2Proof.Machine
end

