-- ==== Sys2Proof/Laws/Map.lean ====
section
/-! SUPPORT. The PMU: MAP's checks are the conditions of `GoodLayout`, and where each sample goes. -/

namespace Sys2Proof.Machine

/-! ### The check of the origins -/

/-- Past a prefix that passes, the check goes on with the rest. -/
theorem originError_append {gx gy : Nat} (pre rest seen : List (Nat × Nat)) (i : Nat)
    (h : originError gx gy seen i pre = none) :
    originError gx gy seen i (pre ++ rest) = originError gx gy (pre.reverse ++ seen) (i + pre.length) rest := by
  induction pre generalizing seen i with
  | nil => simp
  | cons o pre ih =>
    simp only [originError] at h
    split_ifs at h with h₁ h₂
    simp only [List.cons_append, originError, if_neg h₁, if_neg h₂, ih _ _ h, List.reverse_cons, List.length_cons,
      List.append_assoc, List.nil_append]
    congr 1
    omega

theorem originError_eq_none {gx gy : Nat} (os seen : List (Nat × Nat)) (i : Nat) :
    originError gx gy seen i os = none ↔
      (∀ o ∈ os, o.1 < gx ∧ o.2 < gy) ∧ os.Nodup ∧ ∀ o ∈ os, o ∉ seen := by
  induction os generalizing seen i with
  | nil => simp [originError]
  | cons o os ih =>
    simp only [originError]
    split_ifs with h₁ h₂
    · simp only [false_iff, not_and]
      intro h
      have := h o (List.mem_cons_self ..)
      omega
    · simp only [false_iff, not_and]
      intro _ _ h
      exact h o (List.mem_cons_self ..) h₂
    · rw [ih]
      simp only [List.mem_cons, forall_eq_or_imp, List.nodup_cons, not_or]
      have h₃ : o.1 < gx ∧ o.2 < gy := by omega
      constructor
      · rintro ⟨hr, hn, hs⟩
        exact ⟨⟨h₃, hr⟩, ⟨fun ho => (hs o ho).1 rfl, hn⟩, h₂, fun q hq => (hs q hq).2⟩
      · rintro ⟨⟨-, hr⟩, ⟨ho, hn⟩, -, hs⟩
        exact ⟨hr, hn, fun q hq => ⟨fun e => ho (e ▸ hq), hs q hq⟩⟩

/-- An origin outside the grid after a prefix that passes (cause 4). -/
theorem originError_range {gx gy : Nat} (pre rest : List (Nat × Nat)) (o : Nat × Nat)
    (h : originError gx gy [] 0 pre = none) (ho : gx ≤ o.1 ∨ gy ≤ o.2) :
    originError gx gy [] 0 (pre ++ o :: rest) = some (layoutInfo 4 pre.length) := by
  rw [originError_append _ _ _ _ h, originError, if_pos ho, Nat.zero_add]

/-- A repeated origin after a prefix that passes (cause 5). -/
theorem originError_repeat {gx gy : Nat} (pre rest : List (Nat × Nat)) (o : Nat × Nat)
    (h : originError gx gy [] 0 pre = none) (ho : o.1 < gx ∧ o.2 < gy) (hmem : o ∈ pre) :
    originError gx gy [] 0 (pre ++ o :: rest) = some (layoutInfo 5 pre.length) := by
  have h₁ : ¬ (gx ≤ o.1 ∨ gy ≤ o.2) := by omega
  have h₂ : o ∈ pre.reverse ++ [] := by simpa using hmem
  rw [originError_append _ _ _ _ h, originError, if_neg h₁, if_pos h₂, Nat.zero_add]

/-! ### The checks of MAP -/

@[simp] theorem length_panelOrigins (s : State) : (panelOrigins s).length = s.np.toNat := by simp [panelOrigins]

@[simp] theorem getElem_panelOrigins (s : State) (i : Nat) (h : i < (panelOrigins s).length) :
    (panelOrigins s)[i] = originOf (readLut s i) := by simp [panelOrigins]

theorem nodup_panelOrigins (s : State) :
    (panelOrigins s).Nodup ↔
      ∀ i j, i < j → j < s.np.toNat → originOf (readLut s i) ≠ originOf (readLut s j) := by
  rw [List.Nodup, List.pairwise_iff_getElem]
  simp only [length_panelOrigins, getElem_panelOrigins]
  exact ⟨fun h i j hij hj => h i j (by omega) hj hij, fun h i j _ hj hij => h i j hij hj⟩

theorem forall_mem_panelOrigins (s : State) (p : Nat × Nat → Prop) :
    (∀ o ∈ panelOrigins s, p o) ↔ ∀ i < s.np.toNat, p (originOf (readLut s i)) := by
  simp [panelOrigins]

/-- MAP's checks pass on the good layouts, and on no other (R152). -/
theorem mapError_eq_none (s : State) : mapError s = none ↔ GoodLayout s := by
  unfold mapError
  split_ifs with h₁ h₂ h₃ h₄ h₅
  · exact ⟨fun h => by simp at h, fun h => absurd h.canvasFits (Nat.not_le.2 h₁)⟩
  · exact ⟨fun h => by simp at h, fun h => absurd h.tableFits (Nat.not_le.2 h₂)⟩
  · exact ⟨fun h => by simp at h, fun h => by have := h.panelNonzero; omega⟩
  · exact ⟨fun h => by simp at h, fun h => by have := h.wholePanels; omega⟩
  · exact ⟨fun h => by simp at h, fun h => absurd h.panelCount h₅⟩
  · rw [Option.map_eq_none_iff, originError_eq_none, forall_mem_panelOrigins, nodup_panelOrigins]
    have h₅ : s.np.toNat = gridColumns s * gridRows s := not_not.1 h₅
    constructor
    · rintro ⟨hr, hn, -⟩
      exact ⟨Nat.not_lt.1 h₁, Nat.not_lt.1 h₂, by omega, by omega, h₅, hr, hn⟩
    · intro h
      exact ⟨h.inGrid, h.distinct, by simp⟩

theorem mapStage_ok {s : State} (h : GoodLayout s) :
    mapStage s = done { s with
      rb := s.rb.writeFrom 0 (mapSamples s)
      rblen := BitVec.ofNat 32 (pixelCount s)
      rbv := true
      draws := s.draws + 1 } := by
  simp [mapStage, (mapError_eq_none s).2 h, startMap]

theorem mapStage_error {s : State} {e : ErrKind} {info : Word} (h : mapError s = some (e, info)) :
    mapStage s = raise e info { startMap s with rb := [] } := by
  simp [mapStage, h]

/-- MAP raises only E_PARAM and E_LAYOUT (R200). -/
theorem mapError_kind {s : State} {e : ErrKind} {info : Word} (h : mapError s = some (e, info)) :
    e = .param ∨ e = .layout := by
  unfold mapError at h
  split_ifs at h
  all_goals first
    | (obtain ⟨rfl, rfl⟩ : ErrKind.param = e ∧ _ = info := by simpa using h); exact .inl rfl
    | (obtain ⟨rfl, rfl⟩ : ErrKind.layout = e ∧ _ = info := by simpa using h); exact .inr rfl
    | obtain ⟨_, -, h⟩ := Option.map_eq_some_iff.1 h; exact .inr (by simpa using (congrArg Prod.fst h).symm)

/-! ### Where each sample goes (R153) -/

/-- A list made of pieces of one length. -/
theorem getElem?_flatMap_uniform {α β : Type} (f : α → List β) (k : Nat) (l : List α)
    (hk : ∀ a ∈ l, (f a).length = k) (i j : Nat) (hj : j < k) :
    (l.flatMap f)[i * k + j]? = l[i]?.bind fun a => (f a)[j]? := by
  induction l generalizing i with
  | nil => simp
  | cons a l ih =>
    have ha : (f a).length = k := hk a (List.mem_cons_self ..)
    have ih := ih fun b hb => hk b (List.mem_cons_of_mem _ hb)
    rw [List.flatMap_cons]
    cases i with
    | zero => rw [List.getElem?_append_left (by omega)]; simp
    | succ i =>
      have h : (i + 1) * k + j = (f a).length + (i * k + j) := by rw [ha]; ring
      rw [h, List.getElem?_append_right (by omega)]
      simpa using ih i

theorem length_flatMap_uniform {α β : Type} (f : α → List β) (k : Nat) (l : List α)
    (hk : ∀ a ∈ l, (f a).length = k) : (l.flatMap f).length = l.length * k := by
  induction l with
  | nil => simp
  | cons a l ih =>
    rw [List.flatMap_cons, List.length_append, hk a (List.mem_cons_self ..),
      ih fun b hb => hk b (List.mem_cons_of_mem _ hb), List.length_cons]
    ring

@[simp] theorem length_panelSamples (s : State) (o : Nat × Nat) :
    (panelSamples s o).length = s.ph.toNat * s.pw.toNat := by
  rw [panelSamples, length_flatMap_uniform _ s.pw.toNat _ (by simp)]
  simp

theorem length_mapSamples (s : State) :
    (mapSamples s).length = s.np.toNat * (s.ph.toNat * s.pw.toNat) := by
  rw [mapSamples, length_flatMap_uniform _ (s.ph.toNat * s.pw.toNat) _ (by simp)]
  simp

/-- The sample of row `r`, column `c` of the `i`-th panel. -/
theorem getElem?_mapSamples (s : State) {i r c : Nat} (hi : i < s.np.toNat) (hr : r < s.ph.toNat)
    (hc : c < s.pw.toNat) :
    (mapSamples s)[i * (s.ph.toNat * s.pw.toNat) + (r * s.pw.toNat + c)]? =
      some (readFb s (canvasIndex s (originOf (readLut s i)) r c)) := by
  have hrc : r * s.pw.toNat + c < s.ph.toNat * s.pw.toNat := by
    calc r * s.pw.toNat + c < r * s.pw.toNat + s.pw.toNat := by omega
      _ = (r + 1) * s.pw.toNat := by ring
      _ ≤ s.ph.toNat * s.pw.toNat := Nat.mul_le_mul_right _ hr
  rw [mapSamples, getElem?_flatMap_uniform _ _ _ (by simp) _ _ hrc]
  rw [List.getElem?_eq_getElem (by simpa using hi), getElem_panelOrigins, Option.bind_some, panelSamples,
    getElem?_flatMap_uniform _ _ _ (by simp) _ _ hc]
  simp [hr, hc]

/-- A good layout's panels fill the canvas: `NP * (PH * PW) = W * H`. -/
theorem GoodLayout.samples_fill {s : State} (h : GoodLayout s) :
    s.np.toNat * (s.ph.toNat * s.pw.toNat) = pixelCount s := by
  obtain ⟨hw, hh⟩ := h.wholePanels
  have hw := Nat.div_mul_cancel (Nat.dvd_of_mod_eq_zero hw)
  have hh := Nat.div_mul_cancel (Nat.dvd_of_mod_eq_zero hh)
  rw [h.panelCount, pixelCount]
  calc s.w.toNat / s.pw.toNat * (s.h.toNat / s.ph.toNat) * (s.ph.toNat * s.pw.toNat)
      = (s.w.toNat / s.pw.toNat * s.pw.toNat) * (s.h.toNat / s.ph.toNat * s.ph.toNat) := by ring
    _ = _ := by rw [hw, hh]

theorem pixelCount_lt (s : State) : pixelCount s < 2 ^ 32 := by
  have hw : s.w.toNat ≤ 65535 := by have := s.w.isLt; omega
  have hh : s.h.toNat ≤ 65535 := by have := s.h.isLt; omega
  have : pixelCount s ≤ 65535 * 65535 := Nat.mul_le_mul hw hh
  omega

end Sys2Proof.Machine
end

