-- ==== Sys2Proof/Laws/PerInstr.lean ====
section
/-! SUPPORT. Family `TableRow`: every command has legal fields, and its word lies in its row of the command table (30_encoding.md R91). -/

namespace Sys2Proof.Laws

/-- The command is well-formed, and its word meets "Mask" and "Match" of its row. -/
def TableRow.Statement (i : Instr) : Prop := i.WellFormed ∧ encode i &&& tableMask i = tableMatch i

theorem TableRow.cfgbuild : TableRow.Statement .cfgbuild := by unfold TableRow.Statement; decide

theorem TableRow.cfgcheck : TableRow.Statement .cfgcheck := by unfold TableRow.Statement; decide

theorem TableRow.map : TableRow.Statement .map := by unfold TableRow.Statement; decide

theorem TableRow.pack (src : Src) : TableRow.Statement (.pack src) := by
  unfold TableRow.Statement; cases src <;> decide

theorem TableRow.frame : TableRow.Statement .frame := by unfold TableRow.Statement; decide

theorem TableRow.split : TableRow.Statement .split := by unfold TableRow.Statement; decide

theorem TableRow.run (src : Src) : TableRow.Statement (.run src) := by
  unfold TableRow.Statement; cases src <;> decide

end Sys2Proof.Laws
end

