-- ==== Sys2Proof/Machine/HostScript.lean ====
section
/-! DEFINITION. The host script of 30_encoding.md R102 and its pseudo-lines (R104), as data, and the transactions each line stands
for. -/

namespace Sys2Proof.Machine

/-- The number of a register (10_state.md R37). -/
def regNumber : Reg → Byte
  | .cfg i => BitVec.ofNat 8 i.val
  | .cpkt i => BitVec.ofNat 8 (0x10 + i.val)
  | .w => 0x20
  | .h => 0x21
  | .pw => 0x22
  | .ph => 0x23
  | .np => 0x24
  | .maxchunk => 0x25
  | .paceGap => 0x26
  | .paceFrame => 0x27
  | .result => 0x30
  | .einfo => 0x31
  | .faults => 0x32
  | .valid => 0x33
  | .fold => 0x34
  | .rblen => 0x35
  | .pklen => 0x36
  | .wflen => 0x37
  | .nchunk => 0x38
  | .omark => 0x3E
  | .imark => 0x3F

/-- The three addresses of `addr` (R104). -/
inductive Address where
  | new
  | gw
  | mask
  deriving DecidableEq, Repr

/-- A line of a host script (R102, R104). -/
inductive ScriptLine where
  /-- `reg NAME, v`. -/
  | reg (r : Reg) (v : Word)
  /-- `rd NAME`. -/
  | rd (r : Reg)
  /-- `lutw i, x, y`. -/
  | lutw (i x y : Nat)
  /-- `fbw i, v0 v1 ... vn`. -/
  | fbw (i : Nat) (vs : List Word)
  /-- `memr S, i`. -/
  | memr (sp : Space) (i : Nat)
  /-- `cmd MNEMONIC`, `cmd PACK.RAW`, `cmd RUN.RAW`. -/
  | cmd (i : Instr)
  /-- `cmd 0xNN`. -/
  | cmdWord (w : Byte)
  /-- `addr new, a.b.c.d`, and so on. -/
  | addr (which : Address) (a b c d : Byte)
  /-- `layout (x0,y0) ... (xn,yn)`. -/
  | layout (origins : List (Nat × Nat))
  /-- `geom W, H, PW, PH`. -/
  | geom (w h pw ph : Half)
  /-- `reset`. -/
  | reset
  deriving DecidableEq, Repr

/-- The element an address starts at in CFG (10_state.md R21). -/
def addressBase : Address → Nat
  | .new => 0
  | .gw => 4
  | .mask => 8

/-- `MemWrite(LUT, i, 256*y + x)` (30_encoding.md R105). -/
def lutLine (i x y : Nat) : HostAction := .memWrite .lut i (BitVec.ofNat 32 (256 * y + x))

/-- `MemWrite` of a run of elements from index `i` on. -/
def fbLines (i : Nat) : List Word → List HostAction
  | [] => []
  | v :: vs => .memWrite .fb i v :: fbLines (i + 1) vs

/-- `lutw` of a list of origins from entry `i` on. -/
def layoutLines (i : Nat) : List (Nat × Nat) → List HostAction
  | [] => []
  | o :: rest => lutLine i o.1 o.2 :: layoutLines (i + 1) rest

/-- The transactions of a line (R102, R104). -/
def expandLine : ScriptLine → List HostAction
  | .reg r v => [.regWrite (regNumber r) v]
  | .rd r => [.regRead (regNumber r)]
  | .lutw i x y => [lutLine i x y]
  | .fbw i vs => fbLines i vs
  | .memr sp i => [.memRead sp i]
  | .cmd i => [.cmd (encode i)]
  | .cmdWord w => [.cmd w]
  | .addr which a b c d =>
    let base := addressBase which
    [.regWrite (BitVec.ofNat 8 base) (a.setWidth 32), .regWrite (BitVec.ofNat 8 (base + 1)) (b.setWidth 32),
      .regWrite (BitVec.ofNat 8 (base + 2)) (c.setWidth 32), .regWrite (BitVec.ofNat 8 (base + 3)) (d.setWidth 32)]
  | .layout origins =>
    layoutLines 0 origins ++ [.regWrite (regNumber .np) (BitVec.ofNat 32 origins.length)]
  | .geom w h pw ph =>
    [.regWrite (regNumber .w) (w.setWidth 32), .regWrite (regNumber .h) (h.setWidth 32),
      .regWrite (regNumber .pw) (pw.setWidth 32), .regWrite (regNumber .ph) (ph.setWidth 32)]
  | .reset => [.reset]

/-- A script placed before the host's other events, each transaction issued as soon as the one before has returned. -/
def State.withScript (s : State) (lines : List ScriptLine) : State :=
  { s with script := (lines.flatMap expandLine).map (fun a => ⟨0, a, 0⟩) ++ s.script }

end Sys2Proof.Machine
end

