-- ==== Sys2Proof/Laws/Registers.lean ====
section
/-! SUPPORT. The register map: numbers and names agree, and a register read after a register write. -/

namespace Sys2Proof.Machine

/-- Each register has its number (10_state.md R37). -/
theorem regOfNumber_regNumber (r : Reg) : regOfNumber (regNumber r) = some r := by
  cases r with
  | cfg i => revert i; decide
  | cpkt i => revert i; decide
  | _ => rfl

theorem regNumber_of_regOfNumber (n : Byte) (r : Reg) (h : regOfNumber n = some r) : regNumber r = n := by
  have key : ∀ n : Byte, (regOfNumber n).all (fun r => regNumber r == n) = true := by decide
  have := key n
  rw [h] at this
  simpa using this

/-- A number names at most one register, and a register has one number. -/
theorem regOfNumber_inj {n m : Byte} {r : Reg} (hn : regOfNumber n = some r) (hm : regOfNumber m = some r) : n = m :=
  (regNumber_of_regOfNumber n r hn).symm.trans (regNumber_of_regOfNumber m r hm)

/-- The width of an RW register; 0 for an RO register (R37). -/
def regWidth : Reg → Nat
  | .cfg _ | .cpkt _ => 8
  | .w | .h | .pw | .ph | .np | .maxchunk => 16
  | .paceGap | .paceFrame => 32
  | _ => 0

theorem regWidth_ne_zero (r : Reg) : regWidth r ≠ 0 ↔ r.writable = true := by
  cases r <;> simp [regWidth, Reg.writable]

theorem setWidth_setWidth_word (v : Word) (k : Nat) :
    (v.setWidth k).setWidth 32 = BitVec.ofNat 32 (v.toNat % 2 ^ k) := by
  apply BitVec.eq_of_toNat_eq
  simp

/-- A register read after a register write (R62, R63). -/
theorem readReg_writeReg (r q : Reg) (v : Word) (s : State) :
    readReg q (writeReg r v s) =
      if q = r ∧ r.writable = true then BitVec.ofNat 32 (v.toNat % 2 ^ regWidth r) else readReg q s := by
  have h8 := setWidth_setWidth_word v 8
  have h16 := setWidth_setWidth_word v 16
  have h32 : v = BitVec.ofNat 32 (v.toNat % 2 ^ 32) := by
    rw [Nat.mod_eq_of_lt v.isLt, BitVec.ofNat_toNat, BitVec.setWidth_eq]
  by_cases hq : q = r
  · subst hq
    cases q <;> simp only [readReg, writeReg, Reg.writable, and_self, if_true, regWidth, and_false, if_false,
      Bool.false_eq_true]
    all_goals first
      | exact h16
      | exact h32
      | (rw [← h8]; simp)
  · rw [if_neg (fun h => hq h.1)]
    cases r <;> try rfl
    all_goals cases q <;> try rfl
    all_goals first
      | exact absurd rfl hq
      | (rename_i i j
         have h : i.val ≠ j.val := fun e => hq (by rw [Fin.ext e])
         simp [readReg, writeReg, h])

@[simp] theorem readReg_respond (q : Reg) (r : Response) (s : State) : readReg q (respond r s) = readReg q s := by
  cases q <;> rfl

@[simp] theorem readReg_markUnless (q : Reg) (ok : Bool) (s : State) : readReg q (markUnless ok s) = readReg q s := by
  cases q <;> rfl

@[simp] theorem readReg_elapse (q : Reg) (k : Nat) (s : State) : readReg q (elapse k s) = readReg q s := by
  cases q <;> rfl

end Sys2Proof.Machine
end

