-- ==== Sys2Proof/Laws/Split.lean ====
section
/-! SUPPORT. The CSU: everything a hand-over and the emission loop of SPLIT can do. -/

namespace Sys2Proof.Machine

/-! ### Chunks (R171) -/

/-- Successive chunks laid end to end are a slice of the WireFrame. -/
theorem flatMap_chunkAt (wire : List Byte) (m k : Nat) :
    (List.range k).flatMap (chunkAt wire m) = wire.take (k * m) := by
  induction k with
  | zero => simp
  | succ k ih =>
    have h : (k + 1) * m = k * m + m := by ring
    rw [List.range_succ, List.flatMap_append, ih, h, List.take_add]
    simp [chunkAt]

theorem length_chunkAt (wire : List Byte) (m i : Nat) :
    (chunkAt wire m i).length = min m (wire.length - i * m) := by simp [chunkAt]

/-- `ceil(L / M) * M` covers `L`. -/
theorem le_ceilDiv_mul (l : Nat) {m : Nat} (hm : 1 ≤ m) : l ≤ ceilDiv l m * m := by
  have h := Nat.div_add_mod (l + m - 1) m
  have h' := Nat.mod_lt (l + m - 1) (show 0 < m by omega)
  rw [ceilDiv, Nat.mul_comm]
  omega

/-- `ceil(L / M)` is the least such number. -/
theorem ceilDiv_mul_lt (l : Nat) {m : Nat} (hm : 1 ≤ m) : ceilDiv l m * m < l + m := by
  have h := Nat.div_mul_le_self (l + m - 1) m
  rw [ceilDiv]
  omega

theorem ceilDiv_le (l : Nat) {m : Nat} (hm : 1 ≤ m) : ceilDiv l m ≤ l := by
  rcases Nat.eq_zero_or_pos l with rfl | hl
  · simp [ceilDiv, Nat.div_eq_of_lt (show m - 1 < m by omega)]
  · refine Nat.div_le_of_le_mul ?_
    obtain ⟨a, rfl⟩ := Nat.exists_eq_add_of_le hm
    obtain ⟨b, rfl⟩ := Nat.exists_eq_add_of_le hl
    have : (1 + a) * (0 + 1 + b) = 1 + a + b + a * b := by ring
    show 0 + 1 + b + (1 + a) - 1 ≤ (1 + a) * (0 + 1 + b)
    omega

theorem ceilDiv_pos {l m : Nat} (hl : 1 ≤ l) (hm : 1 ≤ m) : 1 ≤ ceilDiv l m := by
  rw [ceilDiv, Nat.le_div_iff_mul_le (by omega)]
  omega

/-! ### One hand-over -/

@[simp] theorem takeSinkEvent_sink (s : State) : (takeSinkEvent s).sink = s.sink.tail := rfl

/-- The wait for a deadline just set ends when the clock moves, or when the pace is 0 and there is no wait. -/
theorem waitEnds_setDeadline (clockMoves : Bool) (pace : Word) (s : State) :
    waitEnds clockMoves (setDeadline pace s) = true ↔ clockMoves = true ∨ pace = 0 := by
  simp [waitEnds, BitVec.toNat_eq]

/-- A hand-over the sink answers. -/
theorem txEmit_answered {bytes : List Byte} {first last : Bool} {s t : State} {a : Answer} {clockMoves : Bool}
    (h : txEmit bytes first last s = .answered a clockMoves t) :
    ∃ lag took, nextSinkEvent s = (if clockMoves then .answers a lag took else .stalls a lag took) ∧
      t = { s with
        now := s.now + lag + took
        txlog := s.txlog ++ [⟨bytes, first, last, a, s.now + lag, s.now + lag + took⟩]
        sink := s.sink.tail
        draws := t.draws } := by
  unfold txEmit at h
  split at h
  · rename_i b lag took he
    obtain ⟨rfl, rfl, rfl⟩ : b = a ∧ true = clockMoves ∧ _ = t := by simpa using h
    exact ⟨lag, took, he, rfl⟩
  · rename_i b lag took he
    obtain ⟨rfl, rfl, rfl⟩ : b = a ∧ false = clockMoves ∧ _ = t := by simpa using h
    exact ⟨lag, took, he, rfl⟩
  · simp at h
  · simp at h

theorem txEmit_silent {bytes : List Byte} {first last : Bool} {s : State}
    (h : txEmit bytes first last s = .silent) : s.sink[0]? = some .silent := by
  unfold txEmit nextSinkEvent at h
  split at h
  · simp at h
  · simp at h
  · rename_i he
    split at he
    · rename_i hs; simp [hs, he]
    · simp at he
  · simp at h

/-- A hand-over that a reset cuts short (R231). -/
theorem txEmit_abandoned {bytes : List Byte} {first last : Bool} {s t : State}
    (h : txEmit bytes first last s = .abandoned t) :
    ∃ u log, t = { applyReset u with txlog := log } ∧ s.now ≤ u.now ∧ u.script = s.script ∧ u.sink = s.sink.tail ∧
      (log = [] ∨ ∃ r, log = [r] ∧ r.tStart ≤ r.tEnd ∧ r.tEnd = u.now ∧ s.now ≤ r.tStart ∧
        r.bytes.length ≤ bytes.length) ∧
      ∃ lag took seen, s.sink[0]? = some (.reset lag took seen) := by
  unfold txEmit at h
  split at h
  · simp at h
  · simp at h
  · simp at h
  · rename_i lag took seen he
    obtain rfl : _ = t := by simpa using h
    refine ⟨elapse (lag + took) (takeSinkEvent s), _, rfl, Nat.le_add_right .., rfl, rfl, ?_, lag, took, seen, ?_⟩
    · cases seen with
      | none => exact .inl rfl
      | some c =>
        refine .inr ⟨_, rfl, Nat.le_add_right .., Nat.add_assoc .., Nat.le_add_right .., ?_⟩
        simp only [cutBytes, List.length_append, List.length_take]
        omega
    · unfold nextSinkEvent at he
      split at he
      · rename_i hs; simp [hs, he]
      · simp at he

theorem nextSinkEvent_of_getElem? {s : State} {e : SinkEvent} (h : s.sink[0]? = some e) : nextSinkEvent s = e := by
  unfold nextSinkEvent
  split
  · rename_i hs; simpa [hs] using h
  · rename_i hs; simp [hs] at h

theorem isAnswer_of_nextSinkEvent {s : State} {a : Answer} {clockMoves : Bool} {lag took : Nat}
    (h : nextSinkEvent s = if clockMoves then .answers a lag took else .stalls a lag took) (e : SinkEvent)
    (he : s.sink[0]? = some e) : e.IsAnswer a := by
  refine ⟨lag, took, ?_⟩
  rw [nextSinkEvent_of_getElem? he] at h
  cases clockMoves
  · exact .inr (by simpa using h)
  · exact .inl (by simpa using h)

/-- Only the sink script stops the clock (log 7). -/
theorem stalls_of_nextSinkEvent {s : State} {a : Answer} {lag took : Nat} (h : nextSinkEvent s = .stalls a lag took) :
    s.sink[0]? = some (.stalls a lag took) := by
  unfold nextSinkEvent at h
  split at h
  · rename_i hs; simp [hs, h]
  · cases h

/-- A wait that ended although the clock stopped had no length. -/
theorem pace_eq_zero_of_stalls {s : State} {a b : Answer} {clockMoves : Bool} {lag took lag' took' : Nat} {pace : Word}
    (h : nextSinkEvent s = if clockMoves then .answers a lag took else .stalls a lag took)
    (hw : clockMoves = true ∨ pace = 0) (he : s.sink[0]? = some (.stalls b lag' took')) : b = a ∧ pace = 0 := by
  rw [nextSinkEvent_of_getElem? he] at h
  cases clockMoves
  · exact ⟨by simpa using (SinkEvent.stalls.inj h).1, by simpa using hw⟩
  · cases h

/-! ### The emission loop (R170) -/

/-- The wait after answer `a` to the `k`-th hand-over, with `left` chunks to go at the first of them (R170). -/
def paceAfter (s : State) (left k : Nat) (a : Answer) : Word :=
  if a = .ok ∧ k + 1 < left then s.paceGap else s.paceFrame

/-- The waits after the first `count` hand-overs ended: where the clock stopped, the wait had no length (R215, R216 (b)). -/
def WaitsEnded (s : State) (left count : Nat) : Prop :=
  ∀ k < count, ∀ a lag took, s.sink[k]? = some (.stalls a lag took) → paceAfter s left k a = 0

/-- The records of the hand-overs of chunks `i`, `i + 1`, and so on, of `n`, with the sink's scripted answers. -/
structure Records (wire : List Byte) (m n i : Nat) (sink : List SinkEvent) (recs : List TxRecord) : Prop where
  chunk : ∀ k (h : k < recs.length), recs[k].bytes = chunkAt wire m (i + k) ∧
    recs[k].first = decide (i + k = 0) ∧ recs[k].last = decide (i + k + 1 = n)
  answered : ∀ k (h : k < recs.length) (e : SinkEvent), sink[k]? = some e → e.IsAnswer recs[k].answer

/-- The pacing law of R172: `start` is the earliest time of the first hand-over, `finish` the time of the response. -/
def Paced (gap frame start finish : Nat) : List TxRecord → Prop
  | [] => start ≤ finish
  | r :: rs => start ≤ r.tStart ∧ r.tStart ≤ r.tEnd ∧
      Paced gap frame (r.tEnd + if rs = [] then frame else gap) finish rs

/-- What the hand-overs change. -/
def Sent (s t : State) (recs : List TxRecord) : Prop :=
  t = { s with
    now := t.now
    txReadyAt := t.txReadyAt
    txlog := s.txlog ++ recs
    nchunk := t.nchunk
    sink := s.sink.drop recs.length
    draws := t.draws }

/-- How the emission loop ends: with `left` of the `n` chunks to go from state `s`, it answers `out`. -/
inductive LoopEnds (wire : List Byte) (m n left : Nat) (s : State) : Host.Outcome State Fault Refusal → Prop where
  /-- Every chunk was answered `ok`. -/
  | sent (recs : List TxRecord) (t : State) (len : recs.length = left) (recsOk : Records wire m n (n - left) s.sink recs)
      (allOk : ∀ r ∈ recs, r.answer = .ok) (paced : Paced s.paceGap.toNat s.paceFrame.toNat (max s.now s.txReadyAt) t.now recs)
      (waits : WaitsEnded s left left)
      (frame : Sent s t recs) (count : t.nchunk = if left = 0 then s.nchunk else BitVec.ofNat 32 n)
      (ready : t.txReadyAt ≤ t.now) : LoopEnds wire m n left s (.next (done t))
  /-- Chunk `n - left + f` was the first answered `fail`. -/
  | failed (f : Nat) (recs : List TxRecord) (t : State) (hf : f < left) (len : recs.length = f + 1)
      (recsOk : Records wire m n (n - left) s.sink recs)
      (answers : ∀ k (h : k < recs.length), recs[k].answer = if k = f then .fail else .ok)
      (paced : Paced s.paceGap.toNat s.paceFrame.toNat (max s.now s.txReadyAt) t.now recs)
      (waits : WaitsEnded s left (f + 1))
      (frame : Sent s t recs) (count : t.nchunk = if f = 0 then s.nchunk else BitVec.ofNat 32 (n - left + f))
      (ready : t.txReadyAt ≤ t.now) :
      LoopEnds wire m n left s (.next (raise .xport (BitVec.ofNat 32 (n - left + f)) t))
  /-- The sink fell silent at chunk `n - left + f`, or the clock stopped short of the deadline after it; the ones before it were
  answered `ok`. -/
  | hangs (f : Nat) (hf : f < left) (before : ∀ k < f, ∀ e, s.sink[k]? = some e → e.IsAnswer .ok)
      (why : s.sink[f]? = some .silent ∨ ∃ a lag took, s.sink[f]? = some (.stalls a lag took) ∧
        paceAfter s left f a ≠ 0) : LoopEnds wire m n left s (.fault .hang)
  /-- A reset cut the hand-over of chunk `n - left + f` short, the ones before it answered `ok`. -/
  | reset (f : Nat) (hf : f < left) (before : ∀ k < f, ∀ e, s.sink[k]? = some e → e.IsAnswer .ok)
      (waits : WaitsEnded s left f) (u : State) (log : List TxRecord) (later : s.now ≤ u.now) (script : u.script = s.script)
      (logOk : log = [] ∨ ∃ r, log = [r] ∧ r.tStart ≤ r.tEnd ∧ r.tEnd = u.now ∧ r.bytes.length ≤ (chunkAt wire m (n - left + f)).length)
      (event : ∃ lag took seen, s.sink[f]? = some (.reset lag took seen)) :
      LoopEnds wire m n left s (.next { applyReset u with txlog := log })

theorem Records.cons {wire : List Byte} {m n i : Nat} {sink : List SinkEvent} {r : TxRecord} {rs : List TxRecord}
    (hb : r.bytes = chunkAt wire m i) (hf : r.first = decide (i = 0)) (hl : r.last = decide (i + 1 = n))
    (ha : ∀ e, sink[0]? = some e → e.IsAnswer r.answer)
    (h : Records wire m n (i + 1) sink.tail rs) : Records wire m n i sink (r :: rs) where
  chunk k hk := by
    cases k with
    | zero => exact ⟨hb, hf, hl⟩
    | succ k =>
      have := h.chunk k (by simpa using hk)
      rwa [show i + 1 + k = i + (k + 1) by omega] at this
  answered k hk e he := by
    cases k with
    | zero => exact ha e he
    | succ k => exact h.answered k (by simpa using hk) e (by simpa using he)

theorem sendChunks_ends (wire : List Byte) (m n : Nat) (left : Nat) (s : State) (hn : left ≤ n) :
    LoopEnds wire m n left s (sendChunks wire m n left s) := by
  induction left generalizing s with
  | zero =>
    exact .sent [] (waitUntil s.txReadyAt s) rfl ⟨by simp, by simp⟩ (by simp) (by simp [Paced]) (by simp [WaitsEnded])
      (by simp [Sent, waitUntil]) rfl (by simp)
  | succ left ih =>
    rw [sendChunks]
    have hi : n - (left + 1) + 1 = n - left := by omega
    split
    · rename_i h
      exact .hangs 0 (by omega) (by simp) (.inl (by simpa using txEmit_silent h))
    · rename_i t h
      obtain ⟨u, log, rfl, hnow, hscript, -, hlog, hev⟩ := txEmit_abandoned h
      refine .reset 0 (by omega) (by simp) (by simp [WaitsEnded]) u log ?_ hscript ?_ hev
      · exact Nat.le_trans (Nat.le_max_left ..) hnow
      · exact hlog.imp_right fun ⟨r, h₁, h₂, h₃, _, h₄⟩ => ⟨r, h₁, h₂, h₃, h₄⟩
    · rename_i clockMoves t h
      obtain ⟨lag, took, hev, ht⟩ := txEmit_answered h
      have hp : t.paceFrame = s.paceFrame := by rw [ht]; rfl
      have hnow : t.now = max s.now s.txReadyAt + lag + took := by rw [ht]; rfl
      have hans := isAnswer_of_nextSinkEvent (s := waitUntil s.txReadyAt s) hev
      simp only
      split
      · rename_i hw
        rw [waitEnds_setDeadline, hp] at hw
        have hr := Records.cons (wire := wire) (m := m) (n := n) (i := n - (left + 1)) (sink := s.sink) (rs := [])
          (r := ⟨chunkAt wire m (n - (left + 1)), decide (n - (left + 1) = 0), decide (left = 0), .fail,
            max s.now s.txReadyAt + lag, max s.now s.txReadyAt + lag + took⟩) rfl rfl
          (by simp only [hi]; congr 1; simp; omega) hans ⟨by simp, by simp⟩
        refine .failed 0 _ _ (by omega) rfl hr (by simp) ?_ ?_ ?_ ?_ ?_
        · simp [Paced, hp, hnow]
        · intro k hk b lag' took' he
          obtain rfl : k = 0 := by omega
          obtain ⟨rfl, h0⟩ := pace_eq_zero_of_stalls hev hw he
          simpa [paceAfter] using h0
        · rw [ht]; simp [Sent, setDeadline, waitUntil]
        · rw [ht]; simp
        · simp
      · rename_i hw
        rw [waitEnds_setDeadline, not_or, hp] at hw
        refine .hangs 0 (by omega) (by simp) (.inr ⟨.fail, lag, took, ?_, by simpa [paceAfter] using hw.2⟩)
        exact stalls_of_nextSinkEvent (s := waitUntil s.txReadyAt s) (by simpa [hw.1] using hev)
    · rename_i clockMoves t h
      obtain ⟨lag, took, hev, ht⟩ := txEmit_answered h
      have hgap : t.paceGap = s.paceGap := by rw [ht]; rfl
      have hframe : t.paceFrame = s.paceFrame := by rw [ht]; rfl
      have hnow : t.now = max s.now s.txReadyAt + lag + took := by rw [ht]; rfl
      have hsink : t.sink = s.sink.tail := by rw [ht]; rfl
      have hscript : t.script = s.script := by rw [ht]; rfl
      have hlog : t.txlog = s.txlog ++ [⟨chunkAt wire m (n - (left + 1)), decide (n - (left + 1) = 0), decide (left = 0), .ok,
          max s.now s.txReadyAt + lag, max s.now s.txReadyAt + lag + took⟩] := by rw [ht]; rfl
      have hans := isAnswer_of_nextSinkEvent (s := waitUntil s.txReadyAt s) hev
      generalize hu : setDeadline (if left = 0 then t.paceFrame else t.paceGap)
        { t with nchunk := BitVec.ofNat 32 (n - (left + 1) + 1) } = u
      simp only
      by_cases hw : waitEnds clockMoves u = true
      case neg =>
        rw [if_neg hw]
        rw [← hu, waitEnds_setDeadline, not_or, hgap, hframe] at hw
        refine .hangs 0 (by omega) (by simp) (.inr ⟨.ok, lag, took, ?_, ?_⟩)
        · exact stalls_of_nextSinkEvent (s := waitUntil s.txReadyAt s) (by simpa [hw.1] using hev)
        · rcases Nat.eq_zero_or_pos left with h0 | h0
          · simpa [paceAfter, h0] using hw.2
          · simpa [paceAfter, h0, Nat.ne_of_gt h0] using hw.2
      rw [if_pos hw]
      have hwait : clockMoves = true ∨ (if left = 0 then s.paceFrame else s.paceGap) = 0 := by
        rwa [← hu, waitEnds_setDeadline, hgap, hframe] at hw
      rename' u => s', hu => hs'
      have hstart : max s'.now s'.txReadyAt =
          t.now + if left = 0 then s.paceFrame.toNat else s.paceGap.toNat := by
        rw [← hs']; simp only [setDeadline_now, setDeadline_txReadyAt, hgap, hframe]
        split <;> omega
      have hnow' : s'.now = t.now := by rw [← hs']; rfl
      have hgap' : s'.paceGap = s.paceGap := by rw [← hs', ← hgap]; rfl
      have hframe' : s'.paceFrame = s.paceFrame := by rw [← hs', ← hframe]; rfl
      have hsink' : s'.sink = s.sink.tail := by rw [← hs', ← hsink]; rfl
      have hscript' : s'.script = s.script := by rw [← hs', ← hscript]; rfl
      have hcount' : s'.nchunk = BitVec.ofNat 32 (n - left) := by rw [← hs', ← hi]; rfl
      have hrec : ∀ rs, Records wire m n (n - left) s'.sink rs → Records wire m n (n - (left + 1)) s.sink
          (⟨chunkAt wire m (n - (left + 1)), decide (n - (left + 1) = 0), decide (left = 0), .ok,
            max s.now s.txReadyAt + lag, max s.now s.txReadyAt + lag + took⟩ :: rs) := fun rs h =>
        Records.cons rfl rfl (by simp only [hi]; congr 1; simp; omega) hans (by rw [hi, ← hsink']; exact h)
      have hsent : ∀ rs u, Sent s' u rs → Sent s u
          (⟨chunkAt wire m (n - (left + 1)), decide (n - (left + 1) = 0), decide (left = 0), .ok,
            max s.now s.txReadyAt + lag, max s.now s.txReadyAt + lag + took⟩ :: rs) := fun rs u h => by
        refine h.trans ?_
        rw [← hs', ht]
        simp [setDeadline, waitUntil]
      have hpaced : ∀ rs f, (rs = [] ↔ left = 0) → Paced s'.paceGap.toNat s'.paceFrame.toNat (max s'.now s'.txReadyAt) f rs →
          Paced s.paceGap.toNat s.paceFrame.toNat (max s.now s.txReadyAt) f
          (⟨chunkAt wire m (n - (left + 1)), decide (n - (left + 1) = 0), decide (left = 0), .ok,
            max s.now s.txReadyAt + lag, max s.now s.txReadyAt + lag + took⟩ :: rs) := fun rs f hrs h => by
        rw [hgap', hframe', hstart, hnow] at h
        refine ⟨Nat.le_add_right .., Nat.le_add_right .., ?_⟩
        simpa only [hrs] using h
      have hwaits : ∀ c, WaitsEnded s' left c → WaitsEnded s (left + 1) (c + 1) := fun c h k hk b lag' took' he => by
        cases k with
        | zero =>
          obtain ⟨rfl, h0⟩ := pace_eq_zero_of_stalls hev hwait he
          rcases Nat.eq_zero_or_pos left with h1 | h1
          · simpa [paceAfter, h1] using h0
          · simpa [paceAfter, h1, Nat.ne_of_gt h1] using h0
        | succ k =>
          have := h k (by omega) b lag' took' (by simpa [hsink'] using he)
          simpa [paceAfter, hgap', hframe'] using this
      have hbefore : ∀ f, (∀ k < f, ∀ e, s'.sink[k]? = some e → e.IsAnswer .ok) →
          ∀ k < f + 1, ∀ e, s.sink[k]? = some e → e.IsAnswer .ok := fun f h k hk e he => by
        cases k with
        | zero => exact hans e he
        | succ k => exact h k (by omega) e (by simpa [hsink'] using he)
      have ih := ih s' (by omega)
      generalize sendChunks wire m n left s' = out at ih ⊢
      cases ih with
      | sent recs u len recsOk allOk paced waits frame count ready =>
        refine .sent (_ :: recs) u (by simp [len]) (hrec _ recsOk) ?_ (hpaced _ _ ?_ paced) (hwaits _ waits) (hsent _ _ frame) ?_ ready
        · simpa using allOk
        · rw [← len, List.length_eq_zero_iff]
        · rw [count, hcount', if_neg (Nat.succ_ne_zero left)]
          split
          · rename_i h0
            rw [h0, Nat.sub_zero]
          · rfl
      | failed f recs u hf len recsOk answers paced waits frame count ready =>
        have key := LoopEnds.failed (wire := wire) (m := m) (n := n) (left := left + 1) (s := s) (f + 1) (_ :: recs) u
          (by omega) (by simp [len]) (hrec _ recsOk) ?_ (hpaced _ _ ?_ paced) (hwaits _ waits) (hsent _ _ frame) ?_ ready
        · rwa [show n - (left + 1) + (f + 1) = n - left + f by omega] at key
        · intro k hk
          cases k with
          | zero => simp
          | succ k => simpa using answers k (by simpa using hk)
        · have : recs ≠ [] := by intro h; simp [h] at len
          have h0 : left ≠ 0 := by omega
          simp [this, h0]
        · rw [count, hcount']
          rcases Nat.eq_zero_or_pos f with rfl | h0
          · simp [hi]
          · rw [if_neg (by omega), if_neg (by omega)]
            congr 1; omega
      | hangs f hf before why =>
        refine .hangs (f + 1) (by omega) (hbefore f before) ?_
        simpa [paceAfter, hsink', hgap', hframe'] using why
      | reset f hf before waits u log later script logOk event =>
        refine .reset (f + 1) (by omega) (hbefore f before) (hwaits f waits) u log (by omega) (script.trans hscript') ?_ (by simpa [hsink'] using event)
        rwa [show n - (left + 1) + (f + 1) = n - left + f by omega]

end Sys2Proof.Machine
end

