-- ==== Sys2Proof/Laws/Stages.lean ====
section
/-! SUPPORT. How each frame command can end, once per command; and what follows from the pacing of a SPLIT. -/

namespace Sys2Proof.Machine

/-- The two ways MAP ends (R150). -/
theorem mapStage_ends (s : State) :
    (GoodLayout s ∧ mapStage s = done { s with
      rb := s.rb.writeFrom 0 (mapSamples s)
      rblen := BitVec.ofNat 32 (pixelCount s)
      rbv := true
      draws := s.draws + 1 }) ∨
    (¬ GoodLayout s ∧ ∃ e info, (e = .param ∨ e = .layout) ∧
      mapStage s = raise e info { startMap s with rb := [] }) := by
  cases he : mapError s with
  | none =>
    have h := (mapError_eq_none s).1 he
    exact .inl ⟨h, mapStage_ok h⟩
  | some p =>
    refine .inr ⟨fun h => ?_, p.1, p.2, mapError_kind he, mapStage_error he⟩
    rw [(mapError_eq_none s).2 h] at he
    cases he

/-- The three ways PACK ends (R130). -/
theorem packStage_ends (src : Src) (s : State) :
    ((src = .reorder → s.rbv = true) ∧ (src = .canvas → pixelCount s ≤ Config.fbDepth) ∧
      packStage src s = done { s with
        rbv := if src = .reorder then false else s.rbv
        pkf := s.pkf.writeFrom 0 (Config.im :: maskBytes (packCount src s) (packPixel src s))
        pklen := BitVec.ofNat 32 (1 + ceilDiv (packCount src s) 7)
        pkv := true
        draws := s.draws + 1 }) ∨
    (src = .reorder ∧ s.rbv = false ∧ packStage src s = raise .seq 0 { startPack s with pkf := [] }) ∨
    (src = .canvas ∧ Config.fbDepth < pixelCount s ∧
      packStage src s = raise .param 1 { startPack s with pkf := [] }) := by
  rcases packStage_cases src s with ⟨h, h'⟩ | ⟨rfl, h⟩ | ⟨rfl, h⟩
  · exact .inl ⟨h, h', packStage_ok h h'⟩
  · exact .inr (.inl ⟨rfl, h, packStage_noRb h⟩)
  · exact .inr (.inr ⟨rfl, h, packStage_tooLarge h⟩)

/-- The two ways FRAME ends (R140). -/
theorem frameStage_ends (s : State) :
    (s.pkv = true ∧ frameStage s = done { s with
      pkv := false
      wfr := s.wfr.writeFrom 0 (Config.om :: packedBytes s)
      wflen := BitVec.ofNat 32 (s.pklen.toNat + 1)
      wfv := true
      draws := s.draws + 1 }) ∨
    (s.pkv = false ∧ frameStage s = raise .seq 1 { startFrame s with wfr := [] }) := by
  cases h : s.pkv with
  | true => exact .inl ⟨rfl, frameStage_ok h⟩
  | false => exact .inr ⟨rfl, frameStage_noPkf h⟩

/-- The ways SPLIT ends (R170): at its checks, or as its emission loop does. -/
theorem splitStage_ends (s : State) :
    (s.wfv = false ∧ splitStage s = .next (raise .seq 2 s)) ∨
    (s.wfv = true ∧ s.maxchunk.toNat = 0 ∧ splitStage s = .next (raise .param 3 s)) ∨
    (s.wfv = true ∧ s.maxchunk.toNat ≠ 0 ∧
      LoopEnds (wireBytes s) s.maxchunk.toNat (ceilDiv s.wflen.toNat s.maxchunk.toNat)
        (ceilDiv s.wflen.toNat s.maxchunk.toNat) (consumeWfr s) (splitStage s)) := by
  unfold splitStage
  split_ifs with h₁ h₂
  · exact .inl ⟨h₁, rfl⟩
  · exact .inr (.inl ⟨by simpa using h₁, h₂, rfl⟩)
  · exact .inr (.inr ⟨by simpa using h₁, h₂, sendChunks_ends _ _ _ _ _ (Nat.le_refl _)⟩)

/-- The records of a frame from chunk 0 on, laid end to end, are the WireFrame from its start (R171). -/
theorem Records.flatMap_bytes {wire : List Byte} {m n : Nat} {sink : List SinkEvent} {recs : List TxRecord}
    (h : Records wire m n 0 sink recs) : recs.flatMap TxRecord.bytes = wire.take (recs.length * m) := by
  have hmap : recs.map TxRecord.bytes = (List.range recs.length).map (chunkAt wire m) := by
    apply List.ext_getElem
    · simp
    · intro i h₁ _
      rw [List.length_map] at h₁
      simpa using (h.chunk i h₁).1
  rw [← flatMap_chunkAt, List.flatMap_def, List.flatMap_def, hmap]

/-- What the pacing of a SPLIT says of its records (R172, 70_reset_and_hazards.md R250). -/
theorem Paced.facts {gap frame start finish : Nat} {recs : List TxRecord} (h : Paced gap frame start finish recs) :
    (∀ k, (hk : k < recs.length) → start ≤ recs[k].tStart ∧ recs[k].tStart ≤ recs[k].tEnd) ∧
    (∀ k, (hk : k + 1 < recs.length) → recs[k].tEnd + gap ≤ recs[k + 1].tStart) ∧
    (∀ r, recs.getLast? = some r → r.tEnd + frame ≤ finish) ∧
    (∀ r, recs[0]? = some r → r.tStart + (recs.length - 1) * gap + frame ≤ finish) ∧
    (∀ r ∈ recs, r.tStart ≤ r.tEnd ∧ r.tEnd ≤ finish) ∧ start ≤ finish := by
  induction recs generalizing start with
  | nil => simpa [Paced] using h
  | cons r rs ih =>
    obtain ⟨h₁, h₂, h₃⟩ := h
    obtain ⟨i₁, i₂, i₃, i₄, i₅, i₆⟩ := ih h₃
    refine ⟨?_, ?_, ?_, ?_, ?_, by omega⟩
    · intro k hk
      cases k with
      | zero => exact ⟨h₁, h₂⟩
      | succ k =>
        have := i₁ k (by simpa using hk)
        simp only [List.getElem_cons_succ]
        exact ⟨by omega, this.2⟩
    · intro k hk
      cases k with
      | zero =>
        have hne : rs ≠ [] := by rintro rfl; simp at hk
        rw [if_neg hne] at i₁
        simpa using (i₁ 0 (by simpa using hk)).1
      | succ k => simpa using i₂ k (by simpa using hk)
    · intro q hq
      cases rs with
      | nil =>
        obtain rfl : r = q := by simpa using hq
        simpa [Paced] using h₃
      | cons a rs => exact i₃ q (by simpa using hq)
    · intro q hq
      obtain rfl : r = q := by simpa using hq
      cases rs with
      | nil =>
        simp only [Paced, if_true] at h₃
        simp only [List.length_singleton, Nat.sub_self, Nat.zero_mul]
        omega
      | cons a rs =>
        have i₄ := i₄ a rfl
        have i₁ := (i₁ 0 (by simp)).1
        simp only [reduceCtorEq, if_false, List.getElem_cons_zero, List.length_cons, Nat.add_sub_cancel] at i₁ i₄ ⊢
        have : (rs.length + 1) * gap = rs.length * gap + gap := by ring
        omega
    · intro q hq
      rcases List.mem_cons.1 hq with rfl | hq
      · exact ⟨h₂, by omega⟩
      · exact i₅ q hq

/-- A rule about every command, from its stages: `R` is what a command that sends nothing does, `Q` what SPLIT does, and `Q` goes through
a stage that ended OK (R180). -/
theorem exec_of_stages {R : State → State → Prop} {Q : State → Host.Outcome State Fault Refusal → Prop}
    (next : ∀ s t, R s t → Q s (.next t)) (andThen : ∀ s t o, R s t → t.result = 0 → Q t o → Q s o)
    (build : ∀ s t, execCfgbuild s = .next t → R s t) (check : ∀ s t, execCfgcheck s = .next t → R s t)
    (map : ∀ s, R s (mapStage s)) (pack : ∀ src s, R s (packStage src s)) (frame : ∀ s, R s (frameStage s))
    (split : ∀ s, Q s (splitStage s)) (i : Instr) (s : State) : Q s (exec i s) := by
  have stage : ∀ s t f, R s t → (∀ u, Q u (f u)) → Q s (thenStage t f) := by
    intro s t f h hf
    unfold thenStage
    split_ifs with h₀
    · exact andThen s t _ h h₀ (hf t)
    · exact next s t h
  have rest : ∀ src s, Q s (thenStage (packStage src s) fun u => thenStage (frameStage u) splitStage) := fun src s =>
    stage _ _ _ (pack src s) fun u => stage _ _ _ (frame u) split
  cases i with
  | cfgbuild => exact next s _ (build s _ rfl)
  | cfgcheck => exact next s _ (check s _ rfl)
  | map => exact next s _ (map s)
  | pack src => exact next s _ (pack src s)
  | frame => exact next s _ (frame s)
  | split => exact split s
  | run src =>
    cases src with
    | reorder => exact stage _ _ _ (map s) (rest .reorder)
    | canvas => exact rest .canvas s

end Sys2Proof.Machine
end

