-- ==== Sys2Proof/Tests/Slice0.lean ====
section
/-! SUPPORT. Tests: the well-formedness checks, the words of the command table, single steps on the vectors of 95_test_vectors.md (the
source of each is named), and for every statement with hypotheses a witness that meets them together. -/

namespace Sys2Proof.Tests

open Sys2Proof.Machine

/-! ### WellFormed: each check refuses an ill-formed term -/

theorem test_zeroOk_refuses : (Cmd8.mk 1 0 4).wellFormed = false := by decide

theorem test_opOk_refuses : (Cmd8.mk 0 0 0).wellFormed = false ∧ (Cmd8.mk 0 0 8).wellFormed = false := by decide

theorem test_srcOk_refuses : (Cmd8.mk 0 1 3).wellFormed = false := by decide

/-- "The nine legal words are 0x01, 0x02, 0x03, 0x04, 0x14, 0x05, 0x06, 0x07, 0x17" (R93). -/
theorem test_nine_words_wellFormed :
    (List.range 256).filter (fun w => (splitWord (BitVec.ofNat 8 w)).wellFormed) =
      [0x01, 0x02, 0x03, 0x04, 0x05, 0x06, 0x07, 0x14, 0x17] := by decide

/-! ### Decode: words written out from the patterns of R91, and the illegal words D-1 to D-6 -/

theorem test_decode_cfgbuild : decode 0b00000001 = .ok .cfgbuild := by rfl
theorem test_decode_cfgcheck : decode 0b00000010 = .ok .cfgcheck := by rfl
theorem test_decode_map : decode 0b00000011 = .ok .map := by rfl
theorem test_decode_pack : decode 0b00000100 = .ok (.pack .reorder) := by rfl
theorem test_decode_pack_raw : decode 0b00010100 = .ok (.pack .canvas) := by rfl
theorem test_decode_frame : decode 0b00000101 = .ok .frame := by rfl
theorem test_decode_split : decode 0b00000110 = .ok .split := by rfl
theorem test_decode_run : decode 0b00000111 = .ok (.run .reorder) := by rfl
theorem test_decode_run_raw : decode 0b00010111 = .ok (.run .canvas) := by rfl

theorem test_decode_op0 : decode 0x00 = .error .reservedOp ∧ decode 0x10 = .error .reservedOp := by exact ⟨rfl, rfl⟩
theorem test_decode_op8 : decode 0x08 = .error .reservedOp ∧ decode 0x1F = .error .reservedOp := by exact ⟨rfl, rfl⟩
theorem test_decode_src :
    [0x11, 0x12, 0x13, 0x15, 0x16].map decode = List.replicate 5 (.error .noSrcOperand) := by rfl
theorem test_decode_high_bits : [0x21, 0x44, 0x87, 0xFF].map decode = List.replicate 4 (.error .reservedBits) := by rfl

theorem test_decodeTableWord :
    decodeTableWord 8 0x17 = some (.run .canvas) ∧ decodeTableWord 8 0x24 = none := by exact ⟨rfl, rfl⟩

/-! ### CFU (vectors C-1, K-1, K-2, K-4) -/

/-- The state an outcome goes on with; the reset state where there is none. -/
def after (o : Host.Outcome State Fault Refusal) : State :=
  match o with
  | .next s => s
  | .fault _ => State.reset
  | .refused _ => State.reset

/-- 192.168.1.50, 192.168.1.1, 255.255.255.0. -/
def cfgC1 : State :=
  { State.reset with cfg := #v[0xC0, 0xA8, 0x01, 0x32, 0xC0, 0xA8, 0x01, 0x01, 0xFF, 0xFF, 0xFF, 0x00] }

theorem test_cfgbuild_C1 :
    (after (exec .cfgbuild cfgC1)).cpkt =
      #v[0x66, 0xC0, 0xA8, 0x01, 0x32, 0xC0, 0xA8, 0x01, 0x01, 0xFF, 0xFF, 0xFF, 0x00] ∧
    (after (exec .cfgbuild cfgC1)).fold = 0x66 := by decide

theorem test_cfgcheck_K1 :
    let t := after (exec .cfgcheck (after (exec .cfgbuild cfgC1)))
    t.fold = 0 ∧ t.result = 0 ∧ t.faults = 0 := by decide

theorem test_cfgcheck_K2 :
    let t := after (exec .cfgcheck
      { State.reset with cpkt := #v[0x66, 0xC0, 0xA8, 0x01, 0x33, 0xC0, 0xA8, 0x01, 0x01, 0xFF, 0xFF, 0xFF, 0x00] })
    t.fold = 1 ∧ t.result = 7 ∧ t.einfo = 1 ∧ t.faults = 0x80 := by decide

/-! ### GEU (vectors P-9, P-2, P-E1, F-1, F-E2) -/

/-- The samples of P-9 in RB. -/
def packP9 : State :=
  { State.reset with
    rbv := true
    rblen := 15
    rb := [(0, 0), (1, 1), (2, 255), (3, 0), (4, 0), (5, 128), (6, 0), (7, 0), (8, 0), (9, 0), (10, 0), (11, 0), (12, 0),
      (13, 2), (14, 7)] }

theorem test_pack_P9 :
    let t := after (exec (.pack .reorder) packP9)
    t.pkf = [(0, Config.im), (1, 0x26), (2, 0x40), (3, 0x01)] ∧ t.pklen = 4 ∧ t.pkv = true ∧ t.rbv = false ∧ t.result = 0 := by
  exact ⟨rfl, rfl, rfl, rfl, rfl⟩

/-- A canvas of one lit pixel, with a good layout of one panel; the sink accepts three chunks of one byte. -/
def onePixel : State :=
  { State.reset with
    w := 1
    h := 1
    pw := 1
    ph := 1
    np := 1
    maxchunk := 1
    lut := [(0, 0)]
    fb := [(0, 255)]
    sink := [.answers .ok 0 1, .answers .ok 0 1, .answers .ok 0 1] }

theorem test_pack_raw_P2 :
    let t := after (exec (.pack .canvas) onePixel)
    t.pkf = [(0, Config.im), (1, 0x01)] ∧ t.pklen = 2 ∧ t.result = 0 := by exact ⟨rfl, rfl, rfl⟩

/-- The PackedFrame of P-9. -/
def frameF1 : State :=
  { State.reset with pkv := true, pklen := 4, pkf := [(0, Config.im), (1, 0x26), (2, 0x40), (3, 0x01)] }

theorem test_frame_F1 :
    let t := after (exec .frame frameF1)
    t.wfr = [(0, Config.om), (1, Config.im), (2, 0x26), (3, 0x40), (4, 0x01)] ∧ t.wflen = 5 ∧ t.wfv = true ∧ t.pkv = false := by
  exact ⟨rfl, rfl, rfl, rfl⟩

theorem test_frame_FE2 :
    let t := after (exec .frame (after (exec .frame frameF1)))
    t.result = 4 ∧ t.einfo = 1 ∧ t.wfv = false ∧ t.faults = 0x10 := by exact ⟨rfl, rfl, rfl, rfl⟩

/-! ### PMU (vectors M-2, M-9, M-13, M-14, M-15) -/

/-- M-2: FB[j] = j, two panels, the right one first. -/
def mapM2 : State :=
  { State.reset with
    w := 4
    h := 2
    pw := 2
    ph := 2
    np := 2
    lut := [(0, 0x0001), (1, 0x0000)]
    fb := [(0, 0), (1, 1), (2, 2), (3, 3), (4, 4), (5, 5), (6, 6), (7, 7)] }

theorem test_map_M2 : mapSamples mapM2 = [2, 3, 6, 7, 0, 1, 4, 5] := by decide

theorem test_map_M9 :
    let t := after (exec .map State.reset)
    t.result = 3 ∧ t.einfo = 0x10000 ∧ t.rbv = false ∧ t.faults = 0x08 := by decide

theorem test_map_M13 : originError 2 1 [] 0 [(0, 0), (2, 0)] = some 0x40001 := by decide
theorem test_map_M14 : originError 2 1 [] 0 [(0, 0), (0, 1)] = some 0x40001 := by decide
theorem test_map_M15 : originError 2 1 [] 0 [(1, 0), (1, 0)] = some 0x50001 := by decide

/-! ### CSU (program 3.2 with its admissible timing, vectors X-E3, X-E6) -/

/-- The WireFrame of program 3.2, at tick 100. -/
def splitP32 (sink : List SinkEvent) : State :=
  { State.reset with
    now := 100
    wfv := true
    wflen := 5
    wfr := [(0, 0xF0), (1, 0xF1), (2, 0x09), (3, 0x01), (4, 0x01)]
    maxchunk := 3
    paceGap := 20
    paceFrame := 50
    sink := sink }

theorem test_split_P32 :
    let t := after (exec .split (splitP32 [.answers .ok 0 1, .answers .ok 0 1]))
    t.txlog = [⟨[0xF0, 0xF1, 0x09], true, false, .ok, 100, 101⟩, ⟨[0x01, 0x01], false, true, .ok, 121, 122⟩] ∧
      t.now = 172 ∧ t.nchunk = 2 ∧ t.result = 0 ∧ t.wfv = false := by decide

theorem test_split_fail :
    let t := after (exec .split (splitP32 [.answers .fail 0 1]))
    t.result = 2 ∧ t.einfo = 0 ∧ t.nchunk = 0 ∧ t.txlog.length = 1 ∧ t.faults = 0x04 ∧ t.now = 151 := by decide

/-- R216 (b), R215: a clock that stops keeps SPLIT in a wait, but not where there is nothing to wait for. -/
theorem test_split_clock_stops :
    exec .split (splitP32 [.stalls .ok 0 1]) = .fault .hang ∧
      (after (exec .split { splitP32 [.stalls .fail 0 1] with paceFrame := 0 })).now = 101 := by exact ⟨rfl, rfl⟩

theorem test_run_raw_onePixel :
    let t := after (exec (.run .canvas) onePixel)
    t.txlog.map TxRecord.bytes = [[Config.om], [Config.im], [0x01]] ∧ t.nchunk = 3 ∧ t.result = 0 := by
  exact ⟨rfl, rfl, rfl⟩

theorem test_run_onePixel :
    let t := after (exec (.run .reorder) onePixel)
    t.txlog.map TxRecord.bytes = [[Config.om], [Config.im], [0x01]] ∧ t.rb = [(0, 255)] ∧ t.rbv = false := by
  exact ⟨rfl, rfl, rfl⟩

/-! ### The host port (vectors H-1, H-2, H-4, H-5, H-7) and the script (R104) -/

theorem test_reg_write_keeps_low_bits :
    (hostRegWrite 0x20 0x12345 State.reset).w = 0x2345 ∧ (hostRegWrite 0x00 0x1C0 State.reset).cfg[0] = 0xC0 := by decide

theorem test_reg_write_ro : (hostRegWrite 0x30 5 State.reset).result = 0 ∧ (hostRegWrite 0x33 7 State.reset).rbv = false := by
  decide

theorem test_reg_read_reserved : (hostRegRead 0x0C State.reset).response = .value 0 := by decide

theorem test_reg_read_marks :
    (hostRegRead 0x3E State.reset).response = .value (Config.om.setWidth 32) ∧
      (hostRegRead 0x3F State.reset).response = .value (Config.im.setWidth 32) := by exact ⟨rfl, rfl⟩

theorem test_lutw_line : lutLine 3 2 1 = .memWrite .lut 3 0x0102 := by rfl

theorem test_lut_write_then_read :
    let t := hostMemWrite .lut 0 0x0102 State.reset
    t.lut = [(0, 0x0102)] ∧ (hostMemRead .lut 0 t).response = .value 0x0102 := by exact ⟨rfl, rfl⟩

theorem test_script_expands :
    expandLine (.addr .gw 192 168 1 1) =
      [.regWrite 0x04 192, .regWrite 0x05 168, .regWrite 0x06 1, .regWrite 0x07 1] ∧
    expandLine (.cmd (.run .canvas)) = [.cmd 0x17] ∧ expandLine (.rd .einfo) = [.regRead 0x31] ∧
    expandLine (.layout [(1, 0), (0, 0)]) = [.memWrite .lut 0 1, .memWrite .lut 1 0, .regWrite 0x24 2] ∧
    expandLine (.fbw 5 [200, 201]) = [.memWrite .fb 5 200, .memWrite .fb 6 201] := by exact ⟨rfl, rfl, rfl, rfl, rfl⟩

theorem test_memory_canonical :
    Memory.write ([(1, 5), (4, 6)] : Memory 8) 2 7 = [(1, 5), (2, 7), (4, 6)] ∧
      Memory.write ([(1, 5), (4, 6)] : Memory 8) 4 7 = [(1, 5), (4, 7)] := by decide

/-! ### Witnesses: a state and operands that meet the hypotheses of each statement together -/

/-- The machine after reset with one event on its host port. -/
def withEvent (a : HostAction) : State := { State.reset with script := [⟨2, a, 3⟩] }

theorem fbDepth_pos : 0 < Config.fbDepth := Nat.succ_pos _

theorem lutDepth_pos : 0 < Config.lutDepth := Nat.succ_pos _

theorem witness_IllegalWordOnlyReportsItself :
    (withEvent (.cmd 0x24)).script = [⟨2, .cmd 0x24, 3⟩] ∧
      (0x24 : Byte) ∉ [0x01, 0x02, 0x03, 0x04, 0x14, 0x05, 0x06, 0x07, 0x17] := by decide

theorem witness_StepRunsTheDecodedCommand :
    (withEvent (.cmd 0x17)).script = [⟨2, .cmd 0x17, 3⟩] ∧ decode 0x17 = .ok (.run .canvas) := by exact ⟨rfl, rfl⟩

theorem witness_ResetEventResets : (withEvent .reset).script = [⟨2, .reset, 3⟩] := by rfl

theorem witness_RegisterReadHasNoSideEffect : (withEvent (.regRead 0x3F)).script = [⟨2, .regRead 0x3F, 3⟩] := by rfl

theorem witness_RegisterWriteReachesOnlyItsRegister :
    (withEvent (.regWrite 0x27 7)).script = [⟨2, .regWrite 0x27 7, 3⟩] ∧ rwWidth 0x27 = 32 ∧ rwWidth 0x30 = 0 := by decide

theorem witness_MemoryWriteStoresOneElement_fb :
    (withEvent (.memWrite .fb (Config.fbDepth - 1) 200)).script = [⟨2, .memWrite .fb (Config.fbDepth - 1) 200, 3⟩] ∧
      Config.fbDepth - 1 < Config.fbDepth := by exact ⟨rfl, Nat.sub_one_lt (Nat.succ_ne_zero _)⟩

theorem witness_MemoryWriteStoresOneElement_lut :
    (withEvent (.memWrite .lut (Config.lutDepth - 1) 200)).script = [⟨2, .memWrite .lut (Config.lutDepth - 1) 200, 3⟩] ∧
      Config.lutDepth - 1 < Config.lutDepth := by exact ⟨rfl, Nat.sub_one_lt (Nat.succ_ne_zero _)⟩

theorem witness_LutEntryHoldsItsOrigin : 255 < 256 ∧ 0 < 256 := by decide

/-- A state with a defined value in element 0 of every memory, and every flag set. -/
def definedCells (sp : Space) : State :=
  { withEvent (.memRead sp 0) with
    rbv := true
    pkv := true
    wfv := true
    rblen := 1
    pklen := 1
    wflen := 1
    lut := [(0, 3)]
    fb := [(0, 4)]
    rb := [(0, 5)]
    pkf := [(0, 6)]
    wfr := [(0, 7)] }

theorem witness_MemoryReadReturnsTheElement (sp : Space) :
    (definedCells sp).script = [⟨2, .memRead sp 0, 3⟩] ∧ 0 < capacity sp ∧
      (definedCells sp).lut.read 0 = some 3 ∧ (definedCells sp).fb.read 0 = some 4 ∧
      (definedCells sp).rbv = true ∧ 0 < (definedCells sp).rblen.toNat ∧ (definedCells sp).rb.read 0 = some 5 ∧
      (definedCells sp).pkv = true ∧ 0 < (definedCells sp).pklen.toNat ∧ (definedCells sp).pkf.read 0 = some 6 ∧
      (definedCells sp).wfv = true ∧ 0 < (definedCells sp).wflen.toNat ∧ (definedCells sp).wfr.read 0 = some 7 := by
  have one : 0 < (1 : Word).toNat := by decide
  refine ⟨rfl, ?_, rfl, rfl, rfl, one, rfl, rfl, one, rfl, rfl, one, rfl⟩
  have := fbDepth_pos
  have := lutDepth_pos
  cases sp <;> simp only [capacity, Config.pkCap, Config.wfCap] <;> omega

theorem witness_AccessOutsideTheInterfaceIsIgnored :
    (withEvent (.memRead .fb Config.fbDepth)).script = [⟨2, .memRead .fb Config.fbDepth, 3⟩] ∧
      capacity .fb ≤ Config.fbDepth ∧
      (withEvent (.memWrite .rb 0 1)).script = [⟨2, .memWrite .rb 0 1, 3⟩] := by exact ⟨rfl, Nat.le_refl _, rfl⟩

/-- K-5: the packet AA 00 ... 00. -/
theorem witness_CfgcheckFoldsThePacket_ok :
    let s : State := { State.reset with cpkt := #v[0xAA, 0, 0, 0, 0, 0, 0, 0, 0, 0, 0, 0, 0] }
    (0 : Byte) = 0xAA ^^^ s.cpkt[0] ^^^ s.cpkt[1] ^^^ s.cpkt[2] ^^^ s.cpkt[3] ^^^ s.cpkt[4] ^^^ s.cpkt[5] ^^^ s.cpkt[6] ^^^
      s.cpkt[7] ^^^ s.cpkt[8] ^^^ s.cpkt[9] ^^^ s.cpkt[10] ^^^ s.cpkt[11] ^^^ s.cpkt[12] := by decide

/-- K-4: the packet after reset. -/
theorem witness_CfgcheckFoldsThePacket_bad :
    let s : State := State.reset
    (0xAA : Byte) = 0xAA ^^^ s.cpkt[0] ^^^ s.cpkt[1] ^^^ s.cpkt[2] ^^^ s.cpkt[3] ^^^ s.cpkt[4] ^^^ s.cpkt[5] ^^^ s.cpkt[6] ^^^
      s.cpkt[7] ^^^ s.cpkt[8] ^^^ s.cpkt[9] ^^^ s.cpkt[10] ^^^ s.cpkt[11] ^^^ s.cpkt[12] ∧ (0xAA : Byte) ≠ 0 := by decide

theorem witness_BuiltPacketVerifies :
    ∃ t u, exec .cfgbuild cfgC1 = .next t ∧ exec .cfgcheck t = .next u := ⟨_, _, rfl, rfl⟩

theorem witness_ChecksumDetectsOneChangedByte :
    let s := after (exec .cfgbuild cfgC1)
    ∃ u, exec .cfgcheck s = .next u ∧ u.result = 0 ∧ (0x33 : Byte) ≠ s.cpkt[4] ∧ (1 : Fin 13) ≠ 2 ∧
      (s.cpkt.swap 1 2).toList.Perm s.cpkt.toList := by
  refine ⟨after (exec .cfgcheck (after (exec .cfgbuild cfgC1))), rfl, by decide, by decide, by decide, ?_⟩
  exact (Vector.swap_perm (by decide) (by decide)).toList

theorem witness_PackWritesMarkerAndMaskBytes :
    (packP9.rbv = true ∧ 15 = packP9.rblen.toNat) ∧
      (1 = onePixel.w.toNat * onePixel.h.toNat ∧ 1 ≤ Config.fbDepth) := by exact ⟨⟨rfl, rfl⟩, rfl, fbDepth_pos⟩

/-- The largest canvas of all. -/
def largestCanvas : State := { State.reset with w := 0xFFFF, h := 0xFFFF }

theorem witness_PackRefusesABadSource :
    State.reset.rbv = false ∧
      (Config.fbDepth < 65535 * 65535 → Config.fbDepth < largestCanvas.w.toNat * largestCanvas.h.toNat) := by
  exact ⟨rfl, id⟩

/-- Seven pixels in RB, the first two on, then a group all on. -/
def firstTwoOn : State :=
  { State.reset with
    rbv := true
    rblen := 7
    rb := [(0, 9), (1, 1), (2, 0), (3, 0), (4, 0), (5, 0), (6, 0)] }

theorem witness_MaskBytesOfRegularFrames_firstTwo :
    7 = packCount .reorder firstTwoOn ∧
      (∃ t, exec (.pack .reorder) firstTwoOn = .next t ∧ t.result = 0) ∧ 7 * 0 + 7 ≤ 7 ∧ 2 ≤ 7 ∧
      ∀ j < 7, packPixel .reorder firstTwoOn (7 * 0 + j) ≠ 0 ↔ j < 2 :=
  ⟨rfl, ⟨_, rfl, rfl⟩, by decide, by decide, by decide⟩

/-- Eight pixels in RB, all of the same sample. -/
def eightPixels (v : Byte) : State :=
  { State.reset with
    rbv := true
    rblen := 8
    rb := [(0, v), (1, v), (2, v), (3, v), (4, v), (5, v), (6, v), (7, v)] }

theorem witness_MaskBytesOfRegularFrames_allOff :
    8 = packCount .reorder (eightPixels 0) ∧
      (∃ t, exec (.pack .reorder) (eightPixels 0) = .next t ∧ t.result = 0) ∧
      ∀ j < 8, packPixel .reorder (eightPixels 0) j = 0 := ⟨rfl, ⟨_, rfl, rfl⟩, by decide⟩

theorem witness_MaskBytesOfRegularFrames_allOn :
    8 = packCount .reorder (eightPixels 255) ∧
      (∃ t, exec (.pack .reorder) (eightPixels 255) = .next t ∧ t.result = 0) ∧
      (∀ j < 8, packPixel .reorder (eightPixels 255) j ≠ 0) ∧ 0 < 8 / 7 ∧ 8 % 7 ≠ 0 :=
  ⟨rfl, ⟨_, rfl, rfl⟩, by decide, by decide, by decide⟩

/-- The document's all-on case: 32 by 16 pixels in RB. -/
def allOn512 : State :=
  { State.reset with
    rbv := true
    rblen := 512
    rb := Memory.writeFrom [] 0 (List.replicate 512 255) }

theorem witness_MaskBytesOfRegularFrames_allOn512 :
    512 = packCount .reorder allOn512 ∧ (∃ t, exec (.pack .reorder) allOn512 = .next t ∧ t.result = 0) ∧
      ∀ j < 512, packPixel .reorder allOn512 j ≠ 0 := by
  refine ⟨rfl, ⟨_, congrArg Host.Outcome.next (packStage_ok (fun _ => rfl) (fun h => nomatch h)), rfl⟩, fun j hj => ?_⟩
  have h : allOn512.rb.read j = some 255 := by
    simp only [allOn512, Memory.read_writeFrom_lt, List.length_replicate, hj, List.getElem_replicate]
  simp only [packPixel, readRb, h, Option.getD_some]
  decide

theorem witness_EncodingErrorNeverArises : ∃ t, exec (.pack .reorder) packP9 = .next t := ⟨_, rfl⟩

theorem witness_FrameAddsTheOuterMarker :
    frameF1.pkv = true ∧ frameF1.pklen.toNat + 1 < 2 ^ 32 ∧ 0 < frameF1.pklen.toNat ∧
      frameF1.pkf.read 0 = some Config.im ∧ State.reset.pkv = false := by
  exact ⟨rfl, by decide, by decide, rfl, rfl⟩

theorem witness_PackThenFrameLeavesAWireFrame :
    ∃ t u, 15 = packCount .reorder packP9 ∧ exec (.pack .reorder) packP9 = .next t ∧ t.result = 0 ∧
      exec .frame t = .next u := ⟨_, _, rfl, rfl, rfl, rfl⟩

/-- The layout of one panel of one pixel is good whatever the capacities. -/
theorem onePixel_goodLayout : GoodLayout onePixel where
  canvasFits := fbDepth_pos
  tableFits := lutDepth_pos
  panelNonzero := by decide
  wholePanels := by decide
  panelCount := by decide
  inGrid := by
    intro i hi
    obtain rfl : i = 0 := Nat.lt_one_iff.1 hi
    exact ⟨by decide, by decide⟩
  distinct := by
    intro i j hij hj
    have : j < 1 := hj
    omega

/-- The layout of M-2 is good where it fits. -/
theorem mapM2_goodLayout (hfb : 8 ≤ Config.fbDepth) (hlut : 2 ≤ Config.lutDepth) : GoodLayout mapM2 where
  canvasFits := hfb
  tableFits := hlut
  panelNonzero := by decide
  wholePanels := by decide
  panelCount := by decide
  inGrid := by
    have h : ∀ i < 2, (originOf (readLut mapM2 i)).1 < 2 ∧ (originOf (readLut mapM2 i)).2 < 1 := by decide
    exact h
  distinct := by
    have h : ∀ j < 2, ∀ i < j, originOf (readLut mapM2 i) ≠ originOf (readLut mapM2 j) := by decide
    exact fun i j hij hj => h j hj i hij

theorem witness_MapCopiesPanelsInLutOrder :
    GoodLayout onePixel ∧ 0 < onePixel.np.toNat ∧ 0 < onePixel.ph.toNat ∧ 0 < onePixel.pw.toNat :=
  ⟨onePixel_goodLayout, by decide, by decide, by decide⟩

theorem witness_MapAcceptsExactlyTheGoodLayouts : ∃ t, exec .map onePixel = .next t := ⟨_, rfl⟩

/-- What an entry must pass in `Obligations.MapReportsTheFirstFailingCheck`. -/
def entryPasses (s : State) (gx gy i : Nat) : Prop :=
  ((originOf (readLut s i)).1 < gx ∧ (originOf (readLut s i)).2 < gy) ∧
    ∀ j < i, originOf (readLut s j) ≠ originOf (readLut s i)

/-- The premises every clause of that statement shares. -/
theorem witness_MapReports_shared (s : State) :
    ∃ (t : State) (gx gy : Nat) (passes : Nat → Prop), exec .map s = .next t ∧ gx = s.w.toNat / s.pw.toNat ∧ gy = s.h.toNat / s.ph.toNat ∧
      ∀ i, passes i ↔ ((originOf (readLut s i)).1 < gx ∧ (originOf (readLut s i)).2 < gy) ∧
        ∀ j < i, originOf (readLut s j) ≠ originOf (readLut s i) :=
  ⟨_, _, _, entryPasses s _ _, rfl, rfl, rfl, fun _ => Iff.rfl⟩

theorem witness_MapReports_canvasTooLarge (h : Config.fbDepth < 65535 * 65535) :
    Config.fbDepth < largestCanvas.w.toNat * largestCanvas.h.toNat := h

theorem witness_MapReports_tableTooLong (h : Config.lutDepth < 65535) :
    let s : State := { State.reset with np := 0xFFFF }
    s.w.toNat * s.h.toNat ≤ Config.fbDepth ∧ Config.lutDepth < s.np.toNat := ⟨Nat.zero_le _, h⟩

theorem witness_MapReports_emptyPanel :
    State.reset.w.toNat * State.reset.h.toNat ≤ Config.fbDepth ∧ State.reset.np.toNat ≤ Config.lutDepth ∧
      (State.reset.pw.toNat = 0 ∨ State.reset.ph.toNat = 0) := ⟨Nat.zero_le _, Nat.zero_le _, .inl rfl⟩

theorem witness_MapReports_partialPanel :
    let s : State := { onePixel with pw := 2 }
    s.w.toNat * s.h.toNat ≤ Config.fbDepth ∧ s.np.toNat ≤ Config.lutDepth ∧ s.pw.toNat ≠ 0 ∧ s.ph.toNat ≠ 0 ∧
      (s.w.toNat % s.pw.toNat ≠ 0 ∨ s.h.toNat % s.ph.toNat ≠ 0) :=
  ⟨fbDepth_pos, lutDepth_pos, by decide, by decide, by decide⟩

theorem witness_MapReports_panelCount :
    let s : State := { onePixel with np := 0 }
    s.w.toNat * s.h.toNat ≤ Config.fbDepth ∧ s.np.toNat ≤ Config.lutDepth ∧ s.pw.toNat ≠ 0 ∧ s.ph.toNat ≠ 0 ∧
      s.w.toNat % s.pw.toNat = 0 ∧ s.h.toNat % s.ph.toNat = 0 ∧
      s.np.toNat ≠ (s.w.toNat / s.pw.toNat) * (s.h.toNat / s.ph.toNat) :=
  ⟨fbDepth_pos, Nat.zero_le _, by decide, by decide, by decide, by decide, by decide⟩

theorem witness_MapReports_outsideTheGrid :
    let s : State := { onePixel with lut := [(0, 0x0001)] }
    s.w.toNat * s.h.toNat ≤ Config.fbDepth ∧ s.np.toNat ≤ Config.lutDepth ∧ s.pw.toNat ≠ 0 ∧ s.ph.toNat ≠ 0 ∧
      s.w.toNat % s.pw.toNat = 0 ∧ s.h.toNat % s.ph.toNat = 0 ∧
      s.np.toNat = (s.w.toNat / s.pw.toNat) * (s.h.toNat / s.ph.toNat) ∧ 0 < s.np.toNat ∧
      (∀ j < 0, entryPasses s 1 1 j) ∧ 1 ≤ (originOf (readLut s 0)).1 :=
  ⟨fbDepth_pos, lutDepth_pos, by decide, by decide, by decide, by decide, by decide, by decide, by simp, by decide⟩

theorem witness_MapReports_repeated (hfb : 2 ≤ Config.fbDepth) (hlut : 2 ≤ Config.lutDepth) :
    let s : State := { onePixel with w := 2, np := 2, lut := [(0, 0x0001), (1, 0x0001)] }
    s.w.toNat * s.h.toNat ≤ Config.fbDepth ∧ s.np.toNat ≤ Config.lutDepth ∧ s.pw.toNat ≠ 0 ∧ s.ph.toNat ≠ 0 ∧
      s.w.toNat % s.pw.toNat = 0 ∧ s.h.toNat % s.ph.toNat = 0 ∧
      s.np.toNat = (s.w.toNat / s.pw.toNat) * (s.h.toNat / s.ph.toNat) ∧ 1 < s.np.toNat ∧
      (∀ j < 1, entryPasses s 2 1 j) ∧ (originOf (readLut s 1)).1 < 2 ∧ (originOf (readLut s 1)).2 < 1 ∧
      ¬ entryPasses s 2 1 1 := by
  refine ⟨hfb, hlut, by decide, by decide, by decide, by decide, by decide, by decide, ?_, by decide, by decide, ?_⟩
  · unfold entryPasses; decide
  · unfold entryPasses; decide

theorem witness_FailedMapClearsRbvAndLeavesAllButRbAndTheReport : ∃ t, exec .map State.reset = .next t ∧ t.result ≠ 0 :=
  ⟨_, rfl, by decide⟩

theorem witness_MapIsABijection : GoodLayout onePixel ∧ 0 < onePixel.w.toNat * onePixel.h.toNat :=
  ⟨onePixel_goodLayout, by decide⟩

theorem witness_OnePanelMapIsTheIdentity :
    ∃ t u v, GoodLayout onePixel ∧ exec .map onePixel = .next t ∧ onePixel.np.toNat = 1 ∧
      exec (.pack .reorder) t = .next u ∧ exec (.pack .canvas) onePixel = .next v ∧
      onePixel.w.toNat / onePixel.pw.toNat = 1 ∧
      ∀ i < onePixel.np.toNat, originOf (readLut onePixel i) = (0, i) := by
  refine ⟨_, _, _, onePixel_goodLayout, rfl, rfl, rfl, rfl, by decide, ?_⟩
  have h : ∀ i < 1, originOf (readLut onePixel i) = (0, i) := by decide
  exact h

/-- Two chunks, both accepted. -/
def twoChunks : State := splitP32 [.answers .ok 0 1, .answers .ok 0 1]

theorem witness_SplitHandsOverTheWholeFrame :
    twoChunks.wfv = true ∧ 3 = twoChunks.maxchunk.toNat ∧ 1 ≤ 3 ∧ 5 = twoChunks.wflen.toNat ∧ 2 = ceilDiv 5 3 ∧
      SinkAccepts 2 twoChunks := by
  refine ⟨rfl, rfl, by decide, rfl, rfl, ?_⟩
  intro k hk
  match k, hk with
  | 0, _ => exact ⟨0, 1, rfl⟩
  | 1, _ => exact ⟨0, 1, rfl⟩

theorem sinkAccepts_one (e : SinkEvent) : SinkAccepts 1 (splitP32 [.answers .ok 0 1, e]) := by
  intro k hk
  obtain rfl : k = 0 := Nat.lt_one_iff.1 hk
  exact ⟨0, 1, rfl⟩

theorem witness_SplitStopsAtTheFirstFailure :
    let s := splitP32 [.answers .ok 0 1, .answers .fail 2 3]
    s.wfv = true ∧ 3 = s.maxchunk.toNat ∧ 1 ≤ 3 ∧ 2 = ceilDiv s.wflen.toNat 3 ∧ 1 < 2 ∧ SinkAccepts 1 s ∧
      ∃ lag took, s.sink[1]? = some (.answers .fail lag took) :=
  ⟨rfl, rfl, by decide, rfl, by decide, sinkAccepts_one _, 2, 3, rfl⟩

theorem witness_SplitChecksBeforeItSends :
    State.reset.wfv = false ∧ (let s : State := { State.reset with wfv := true }; s.wfv = true ∧ s.maxchunk = 0) := by
  exact ⟨rfl, rfl, rfl⟩

theorem twoChunks_sinkAnswers : SinkAnswers twoChunks := by
  intro e he
  have he : e ∈ [SinkEvent.answers .ok 0 1, .answers .ok 0 1] := he
  obtain rfl : e = .answers .ok 0 1 := by simpa using he
  exact ⟨.ok, 0, 1, .inl rfl⟩

theorem witness_PacingLaw :
    SinkAnswers twoChunks ∧ (∃ t, exec .split twoChunks = .next t) ∧
      eraseTimes twoChunks = eraseTimes (splitP32 [.answers .ok 5 6, .answers .ok 7 8]) :=
  ⟨twoChunks_sinkAnswers, ⟨_, rfl⟩, rfl⟩

theorem witness_FrameTakesAtLeastItsPacing :
    SinkAnswers twoChunks ∧ ∃ t r, exec .split twoChunks = .next t ∧ t.result = 0 ∧
      t.txlog[twoChunks.txlog.length]? = some r := ⟨twoChunks_sinkAnswers, _, _, rfl, rfl, rfl⟩

theorem witness_SplitHangsOnASilentSink :
    let s := splitP32 [.answers .ok 0 1, .silent]
    s.wfv = true ∧ s.maxchunk ≠ 0 ∧ 1 < ceilDiv s.wflen.toNat s.maxchunk.toNat ∧ SinkAccepts 1 s ∧
      s.sink[1]? = some .silent := ⟨rfl, by decide, by decide, sinkAccepts_one _, rfl⟩

theorem witness_ResetDuringSplitAbandonsIt :
    let s := splitP32 [.answers .ok 0 1, .reset 1 1 (some ⟨1, [0], .ok⟩)]
    s.wfv = true ∧ s.maxchunk ≠ 0 ∧ 1 < ceilDiv s.wflen.toNat s.maxchunk.toNat ∧ SinkAccepts 1 s ∧
      s.sink[1]? = some (.reset 1 1 (some ⟨1, [0], .ok⟩)) := ⟨rfl, by decide, by decide, sinkAccepts_one _, rfl⟩

theorem witness_RunIsItsStagesInTurn :
    ∃ andThen : Host.Outcome State Fault Refusal → Instr → Host.Outcome State Fault Refusal,
      ∀ o i, andThen o i = match o with
        | .next t => if t.result = 0 then exec i t else .next t
        | .fault f => .fault f
        | .refused r => .refused r := ⟨_, fun _ _ => rfl⟩

theorem witness_RunSendsTheWireFrameOfTheCanvas :
    1 = onePixel.w.toNat * onePixel.h.toNat ∧ 3 = 2 + ceilDiv 1 7 ∧ GoodLayout onePixel ∧ 1 ≤ Config.fbDepth ∧
      1 ≤ onePixel.maxchunk.toNat ∧ SinkAccepts (ceilDiv 3 onePixel.maxchunk.toNat) onePixel := by
  refine ⟨rfl, rfl, onePixel_goodLayout, fbDepth_pos, by decide, ?_⟩
  intro k hk
  have hk : k < 3 := hk
  match k, hk with
  | 0, _ => exact ⟨0, 1, rfl⟩
  | 1, _ => exact ⟨0, 1, rfl⟩
  | 2, _ => exact ⟨0, 1, rfl⟩

theorem witness_FaultsRecordEveryError : SinkAnswers State.reset ∧ ∃ t, exec .frame State.reset = .next t :=
  ⟨by simp [SinkAnswers, State.reset], _, rfl⟩

theorem witness_EachCommandReturnsOnlyItsResults :
    (∃ t, exec .cfgbuild State.reset = .next t) ∧ (∃ t, exec .cfgcheck State.reset = .next t) ∧
      (∃ t, exec .map State.reset = .next t) ∧ (∃ t, exec (.pack .reorder) State.reset = .next t) ∧
      (∃ t, exec (.pack .canvas) State.reset = .next t) ∧ (∃ t, exec .frame State.reset = .next t) ∧
      (∃ t, exec .split State.reset = .next t) ∧ (∃ t, exec (.run .reorder) State.reset = .next t) ∧
      ∃ t, exec (.run .canvas) State.reset = .next t :=
  ⟨⟨_, rfl⟩, ⟨_, rfl⟩, ⟨_, rfl⟩, ⟨_, rfl⟩, ⟨_, rfl⟩, ⟨_, rfl⟩, ⟨_, rfl⟩, ⟨_, rfl⟩, ⟨_, rfl⟩⟩

theorem witness_EveryCommandReturns :
    (SinkSpeaks twoChunks ∧ ClockMoves twoChunks) ∧ (Instr.map ≠ .split ∧ ∀ src, Instr.map ≠ .run src) := by
  have h : ∀ e ∈ twoChunks.sink, e = .answers .ok 0 1 := by decide
  refine ⟨⟨fun e he => ?_, fun e he => ?_⟩, by simp, by simp⟩
  · simp [h e he]
  · simp [h e he]

theorem witness_CommandsLeaveTheConfigurationAlone :
    SinkAnswers twoChunks ∧ (∃ t, exec .split twoChunks = .next t) ∧ Instr.split ≠ .cfgbuild ∧ Instr.split ≠ .cfgcheck :=
  ⟨twoChunks_sinkAnswers, ⟨_, rfl⟩, by simp, by simp⟩

theorem witness_NoByteOfABadFrameIsSent :
    ∃ t, exec .frame State.reset = .next t ∧ t.result ≠ 0 ∧ t.result ≠ 2 ∧ Instr.frame ≠ .split ∧
      ∀ src, Instr.frame ≠ .run src := ⟨_, rfl, by decide, by decide, by simp, by simp⟩

theorem witness_TimeChangesNoFunctionalResult :
    eraseTimes (withEvent (.cmd 0x06)) = eraseTimes { withEvent (.cmd 0x06) with now := 9, script := [⟨4, .cmd 0x06, 0⟩] } := by
  rfl

theorem witness_TimeNeverDecreases : ∃ t, step (withEvent (.cmd 0x06)) = .next t := ⟨_, rfl⟩

/-- A remapped framebuffer of one sample, and the command PACK on the host port. -/
def onePixelMapped : State :=
  { onePixel with rbv := true, rblen := 1, rb := [(0, 255)], script := [⟨2, .cmd 0x04, 3⟩] }

theorem onePixelMapped_inv : StateInv onePixelMapped where
  lutForm := ⟨by decide, fun c hc => by
    obtain rfl := List.mem_singleton.1 hc
    exact lutDepth_pos⟩
  fbForm := ⟨by decide, fun c hc => by
    obtain rfl := List.mem_singleton.1 hc
    exact fbDepth_pos⟩
  rbForm := ⟨by decide, fun c hc => by
    obtain rfl := List.mem_singleton.1 hc
    exact fbDepth_pos⟩
  pkfForm := ⟨by decide, fun c hc => by cases hc⟩
  wfrForm := ⟨by decide, fun c hc => by cases hc⟩
  deadline := Nat.le_refl _
  logTimes := fun r hr => by cases hr
  codeRange := by decide
  okInfo := fun _ => rfl
  faultsBit0 := rfl
  faultOnRecord := fun h => absurd rfl h
  rbHolds := fun _ => ⟨fbDepth_pos, by decide⟩
  pkfHolds := fun h => by cases h
  wfrHolds := fun h => by cases h

theorem witness_EveryStepKeepsTheInvariant :
    StateInv onePixelMapped ∧ ∃ t, step onePixelMapped = .next t := ⟨onePixelMapped_inv, _, rfl⟩

theorem witness_SplitHangsOnAStoppedClock :
    (∃ s : State, s = splitP32 [.answers .ok 0 1, .stalls .fail 0 1] ∧
      s.wfv = true ∧ s.maxchunk ≠ 0 ∧ 2 = ceilDiv s.wflen.toNat s.maxchunk.toNat ∧ 1 < 2 ∧ SinkAccepts 1 s ∧
        s.sink[1]? = some (.stalls .fail 0 1) ∧
        (if Answer.fail = .ok ∧ 1 + 1 < 2 then s.paceGap else s.paceFrame) ≠ 0) ∧
    (∃ s : State, s = { splitP32 [.stalls .ok 0 1, .stalls .ok 0 1] with paceGap := 0, paceFrame := 0 } ∧
      s.paceGap = 0 ∧ s.paceFrame = 0 ∧ SinkSpeaks s) := by
  refine ⟨⟨_, rfl, rfl, by decide, by decide, by decide, sinkAccepts_one _, rfl, by decide⟩, _, rfl, rfl, rfl, ?_⟩
  have h : ∀ e ∈ [SinkEvent.stalls .ok 0 1, .stalls .ok 0 1], e = .stalls .ok 0 1 := by decide
  intro e he
  simp [h e he]

end Sys2Proof.Tests
end

section
/-! The open parameters (00_scope.md R7, R8): what holds of them for every value they may take. -/

namespace Sys2Proof.Config

/-- `IM` lies 1 to 255 above `OM`, so never a multiple of 256. -/
theorem om_ne_im : om ≠ im := by
  intro h
  have hoffset : BitVec.ofNat 8 (imOffset.val + 1) = 0 := BitVec.self_eq_add_right.1 h
  have hmod : (imOffset.val + 1) % 256 = 0 := by simpa using congrArg BitVec.toNat hoffset
  have hlt : imOffset.val < 255 := imOffset.isLt
  omega

theorem one_le_fbDepth : 1 ≤ fbDepth := Nat.le_add_left 1 _

theorem one_le_lutDepth : 1 ≤ lutDepth := Nat.le_add_left 1 _

theorem lutDepth_le : lutDepth ≤ 65535 := lutDepthLess1.isLt

theorem fbDepth_le : fbDepth ≤ 30064771051 := fbDepthLess1.isLt

theorem pkCap_eq : pkCap = 1 + Machine.ceilDiv fbDepth 7 := rfl

theorem wfCap_eq : wfCap = 2 + Machine.ceilDiv fbDepth 7 := rfl

theorem wfCap_lt : wfCap < 2 ^ 32 := by
  have h : fbDepth ≤ 30064771051 := fbDepth_le
  unfold wfCap
  omega

end Sys2Proof.Config

/-- Settles O1, from the bounds of the open parameters. -/
theorem Sys2Proof.parametersMeetTheirConstraints : Obligations.ParametersMeetTheirConstraints :=
  ⟨Config.om_ne_im, Config.one_le_fbDepth, Config.one_le_lutDepth, Config.lutDepth_le, Config.pkCap_eq, Config.wfCap_eq,
    Config.wfCap_lt⟩
end

section
/-! One step of the host port: the event taken, the command of a legal word, and the time around it (20_memory.md R61). -/

namespace Sys2Proof

@[simp] theorem srcOfBit_bit (src : Src) : srcOfBit src.bit = src := by cases src <;> rfl

/-- The word of a command is legal and selects that command (30_encoding.md R91). -/
@[simp] theorem decode_encode (i : Instr) : decode (encode i) = .ok i := by
  cases i with
  | cfgbuild | cfgcheck | map | frame | split => rfl
  | pack src | run src => cases src <;> rfl

namespace Machine

theorem step_of_script {s : State} {ev : HostEvent} {rest : List HostEvent} (h : s.script = ev :: rest) :
    step s = runEvent ev { s with script := rest } := by
  simp only [step, h]

theorem hostCmd_of_decode {w : Byte} {i : Instr} (h : decode w = .ok i) (s : State) : hostCmd w s = exec i s := by
  simp only [hostCmd, h]

/-- The event `Cmd(w)` with a legal word runs its command, between the event's two times. -/
theorem runEvent_cmd {w : Byte} {i : Instr} (h : decode w = .ok i) (after busy : Nat) (s : State) :
    runEvent ⟨after, .cmd w, busy⟩ s = mapNext (elapse busy) (exec i (elapse after s)) :=
  congrArg (mapNext (elapse busy)) (hostCmd_of_decode h (elapse after s))

@[simp] theorem elapse_zero (s : State) : elapse 0 s = s := rfl

@[simp] theorem mapNext_elapse_zero (o : Host.Outcome State Fault Refusal) : mapNext (elapse 0) o = o := by
  cases o <;> rfl

/-- A command's word has 8 bits, so the table's form of it loses none. -/
@[simp] theorem cmdEvent_toNat (w : Byte) : cmdEvent 8 w.toNat = ⟨0, .cmd w, 0⟩ := by
  rw [cmdEvent, BitVec.toNat_mod_cancel, BitVec.ofNat_toNat, BitVec.setWidth_eq]

/-- The step after `withFetchWord` takes the word's event, and the host's other events are as before. -/
theorem step_withFetchWord (s : State) (nbits w : Nat) : step (s.withFetchWord nbits w) = runEvent (cmdEvent nbits w) s :=
  step_of_script rfl

/-- Settles O6: the step takes the event `Cmd(w)` (`step_of_script`), which runs the command (`runEvent_cmd`); after
`withFetchWord` the event is the command's own word, with no time around it. -/
theorem stepRunsTheDecodedCommand : Obligations.StepRunsTheDecodedCommand := by
  unfold Obligations.StepRunsTheDecodedCommand
  constructor
  · intro s after busy w rest i hscript hdecode
    rw [step_of_script hscript, runEvent_cmd hdecode]
    show mapNext (elapse busy) (exec i { s with script := rest, now := s.now + after }) = _
    cases exec i { s with script := rest, now := s.now + after } with
    | next t => rfl
    | fault f => rfl
    | refused r => rfl
  · intro s i
    rw [step_withFetchWord, cmdEvent_toNat, runEvent_cmd (decode_encode i), mapNext_elapse_zero, elapse_zero]

end Machine
end Sys2Proof
end

section
/-! The state invariant (10_state.md R25, R26, R29, R33, R36; 43_split.md R174): one rule per shared operation, per command and per host
transaction, and from them the step. -/

namespace Sys2Proof.Machine

theorem ceilDiv_mono {n k : Nat} (h : n ≤ k) (m : Nat) : ceilDiv n m ≤ ceilDiv k m :=
  Nat.div_le_div_right (by omega)

/-- The WireFrame of a canvas that fits in FB fits in WFR, and its length in a register (00_scope.md R8). -/
theorem two_add_ceilDiv_le {n : Nat} (h : n ≤ Config.fbDepth) : 2 + ceilDiv n 7 ≤ Config.wfCap := by
  rw [Config.wfCap_eq]
  exact Nat.add_le_add_left (ceilDiv_mono h 7) 2

theorem toNat_ofNat_word {k : Nat} (h : k ≤ Config.wfCap) : (BitVec.ofNat 32 k).toNat = k :=
  Nat.mod_eq_of_lt (Nat.lt_of_le_of_lt h Config.wfCap_lt)

/-! ### The shared operations -/

section
variable {s : State} (h : StateInv s)
include h

theorem StateInv.raise (e : ErrKind) (info : Word) : StateInv (raise e info s) :=
  { h with
    codeRange := (errCode_range e).2
    okInfo := fun h₀ => absurd h₀ (errCode_ne_zero e)
    faultsBit0 := by
      have hcode : (errCode e).toNat ≠ 0 := by have := errCode_range e; omega
      rw [raise_faults, setFaultBit, BitVec.getLsbD_or, h.faultsBit0, BitVec.getLsbD_twoPow]
      simp [hcode]
    faultOnRecord := fun _ => by
      have hcode : (errCode e).toNat < 8 := by have := errCode_range e; omega
      simp [setFaultBit, hcode] }

theorem StateInv.done : StateInv (done s) :=
  { h with
    codeRange := Nat.zero_le 7
    okInfo := fun _ => rfl
    faultOnRecord := fun h₀ => absurd rfl h₀ }

theorem StateInv.elapse (k : Nat) : StateInv (elapse k s) :=
  { h with
    deadline := Nat.le_add_right_of_le h.deadline
    logTimes := fun r hr => (h.logTimes r hr).imp_right Nat.le_add_right_of_le }

theorem StateInv.respond (r : Response) : StateInv (respond r s) := { h with }

theorem StateInv.markUnless (ok : Bool) : StateInv (markUnless ok s) := { h with }

theorem StateInv.withScript (script : List HostEvent) : StateInv { s with script := script } := { h with }

end

/-- A reset leaves the invariant, with whatever it leaves in the log of a hand-over it cut short (70_reset_and_hazards.md R230, R231). -/
theorem StateInv.applyReset (s : State) {log : List TxRecord} (hlog : ∀ r ∈ log, r.tStart ≤ r.tEnd ∧ r.tEnd ≤ s.now) :
    StateInv { applyReset s with txlog := log } where
  lutForm := by simp
  fbForm := by simp
  rbForm := by simp
  pkfForm := by simp
  wfrForm := by simp
  deadline := Nat.le_refl _
  logTimes := hlog
  codeRange := Nat.zero_le 7
  okInfo _ := rfl
  faultsBit0 := by simp
  faultOnRecord h₀ := absurd rfl h₀
  rbHolds h₀ := nomatch h₀
  pkfHolds h₀ := nomatch h₀
  wfrHolds h₀ := nomatch h₀

/-! ### The host's transactions -/

theorem StateInv.writeReg {s : State} (h : StateInv s) (r : Reg) (v : Word) : StateInv (writeReg r v s) := by
  cases r <;> exact { h with }

theorem StateInv.hostRegWrite {s : State} (h : StateInv s) (n : Byte) (v : Word) : StateInv (hostRegWrite n v s) := by
  unfold Machine.hostRegWrite
  split
  · exact ((h.writeReg _ v).markUnless _).respond _
  · exact (h.markUnless false).respond _

theorem StateInv.hostRegRead {s : State} (h : StateInv s) (n : Byte) : StateInv (hostRegRead n s) := by
  unfold Machine.hostRegRead
  split
  · exact h.respond _
  · exact (h.markUnless false).respond _

theorem StateInv.hostMemRead {s : State} (h : StateInv s) (sp : Space) (i : Nat) : StateInv (hostMemRead sp i s) := by
  unfold Machine.hostMemRead
  split
  · have hdraws : StateInv { s with draws := s.draws + 1 } := { h with }
    exact (hdraws.markUnless _).respond _
  · exact (h.markUnless false).respond _

theorem StateInv.hostMemWrite {s : State} (h : StateInv s) (sp : Space) (i : Nat) (v : Word) :
    StateInv (hostMemWrite sp i v s) := by
  have hignored : StateInv (Machine.respond .nothing (Machine.markUnless false s)) := (h.markUnless false).respond _
  cases sp with
  | lut =>
    by_cases hi : i < Config.lutDepth
    · have hcell : StateInv { s with lut := s.lut.write i (v.setWidth 16) } :=
        { h with lutForm := ⟨Memory.wf_write h.lutForm.1 i _, Memory.below_write h.lutForm.2 hi _⟩ }
      rw [Machine.hostMemWrite, if_pos hi]
      exact hcell.respond _
    · rw [Machine.hostMemWrite, if_neg hi]
      exact hignored
  | fb =>
    by_cases hi : i < Config.fbDepth
    · have hcell : StateInv { s with fb := s.fb.write i (v.setWidth 8) } :=
        { h with fbForm := ⟨Memory.wf_write h.fbForm.1 i _, Memory.below_write h.fbForm.2 hi _⟩ }
      rw [Machine.hostMemWrite, if_pos hi]
      exact (hcell.markUnless _).respond _
    · rw [Machine.hostMemWrite, if_neg hi]
      exact hignored
  | rb | pkf | wfr => exact hignored

/-! ### CFU -/

theorem StateInv.execCfgbuild {s t : State} (h : StateInv s) (ht : execCfgbuild s = .next t) : StateInv t := by
  obtain rfl := Host.Outcome.next.inj ht
  have hcpkt : StateInv { s with cpkt := configPacket s.cfg, fold := sfold s.cfg.toList } := { h with }
  exact hcpkt.done

theorem StateInv.execCfgcheck {s t : State} (h : StateInv s) (ht : execCfgcheck s = .next t) : StateInv t := by
  have hfold : ∀ c, StateInv { s with fold := c } := fun c => { h with }
  by_cases hc : sfold s.cpkt.toList = 0
  · obtain rfl := Host.Outcome.next.inj ((execCfgcheck_ok hc).symm.trans ht)
    exact (hfold 0).done
  · obtain rfl := Host.Outcome.next.inj ((execCfgcheck_bad hc).symm.trans ht)
    exact (hfold _).raise _ _

/-! ### MAP -/

theorem StateInv.mapStage {s : State} (h : StateInv s) : StateInv (mapStage s) := by
  rcases mapStage_ends s with ⟨hlayout, hend⟩ | ⟨-, e, info, -, hend⟩
  · have hlength : (mapSamples s).length = pixelCount s := (length_mapSamples s).trans hlayout.samples_fill
    have hrblen : (BitVec.ofNat 32 (pixelCount s)).toNat = pixelCount s := Nat.mod_eq_of_lt (pixelCount_lt s)
    have hrb : StateInv { s with
        rb := s.rb.writeFrom 0 (mapSamples s)
        rblen := BitVec.ofNat 32 (pixelCount s)
        rbv := true
        draws := s.draws + 1 } :=
      { h with
        rbForm := ⟨Memory.wf_writeFrom _ h.rbForm.1 0,
          Memory.below_writeFrom _ h.rbForm.2 (by rw [hlength, Nat.zero_add]; exact hlayout.canvasFits)⟩
        rbHolds := fun _ => by
          rw [hrblen]
          refine ⟨hlayout.canvasFits, fun i hi => ?_⟩
          rw [Memory.read_writeFrom_lt s.rb (by rwa [hlength])]
          rfl }
    exact hend ▸ hrb.done
  · have hrb : StateInv { startMap s with rb := [] } := { h with rbForm := by simp, rbHolds := nofun }
    exact hend ▸ hrb.raise e info

/-! ### PACK and FRAME -/

/-- Marks and then mask bytes, written from cell 0 on, are what `HoldsFrame` asks of a buffer. -/
theorem holdsFrame_writeFrom (m : Memory 8) (marks masks : List Byte) (hmasks : ∀ b ∈ masks, b.getLsbD 7 = false) :
    HoldsFrame (m.writeFrom 0 (marks ++ masks)) (marks.length + masks.length) marks := by
  refine ⟨Nat.le_add_right .., fun i hi => ?_, fun i hi hlt => ?_⟩
  · rw [Memory.read_writeFrom_lt m (by rw [List.length_append]; omega), List.getElem_append_left hi]
  · refine ⟨masks[i - marks.length], ?_, hmasks _ (List.getElem_mem _)⟩
    rw [Memory.read_writeFrom_lt m (by rwa [List.length_append]), List.getElem_append_right hi]

theorem maskBytes_bit7 {n : Nat} {pixel : Nat → Byte} {b : Byte} (hb : b ∈ maskBytes n pixel) : b.getLsbD 7 = false := by
  obtain ⟨g, -, rfl⟩ := List.mem_map.1 hb
  rw [groupMask_bit]
  simp

/-- Of a buffer that holds a PackedFrame FRAME reads `IM` and then mask bytes. -/
theorem packedBytes_of_holdsFrame {s : State} (h : HoldsFrame s.pkf s.pklen.toNat [Config.im]) :
    ∃ masks : List Byte, packedBytes s = Config.im :: masks ∧ ∀ b ∈ masks, b.getLsbD 7 = false := by
  obtain ⟨hlen, hmark, hmasks⟩ := h
  obtain ⟨k, hk⟩ : ∃ k, s.pklen.toNat = k + 1 := Nat.exists_eq_add_of_le' hlen
  have hread : ∀ {i b}, s.pkf.read i = some b → readPkf s i = b := fun h => by rw [readPkf, h]; rfl
  refine ⟨(List.range k).map fun i => readPkf s (i + 1), ?_, fun b hb => ?_⟩
  · rw [packedBytes, hk, List.range_succ_eq_map, List.map_cons, List.map_map, hread (hmark 0 Nat.one_pos)]
    rfl
  · obtain ⟨i, hi, rfl⟩ := List.mem_map.1 hb
    obtain ⟨b, hcell, hbit⟩ := hmasks (i + 1) (Nat.le_add_left ..) (by rw [hk]; simpa using hi)
    rwa [hread hcell]

/-- An accepted source of PACK is within the capacity of FB. -/
theorem StateInv.packCount_le {s : State} (h : StateInv s) {src : Src} (hrb : src = .reorder → s.rbv = true)
    (hfb : src = .canvas → pixelCount s ≤ Config.fbDepth) : packCount src s ≤ Config.fbDepth := by
  cases src with
  | reorder => exact (h.rbHolds (hrb rfl)).1
  | canvas => exact hfb rfl

theorem StateInv.packStage {s : State} (h : StateInv s) (src : Src) : StateInv (packStage src s) := by
  rcases packStage_ends src s with ⟨hrb, hfb, hend⟩ | ⟨-, -, hend⟩ | ⟨-, -, hend⟩
  · have hcount : packCount src s ≤ Config.fbDepth := h.packCount_le hrb hfb
    have hpklen : (BitVec.ofNat 32 (1 + ceilDiv (packCount src s) 7)).toNat = 1 + ceilDiv (packCount src s) 7 :=
      toNat_ofNat_word (by have := two_add_ceilDiv_le hcount; omega)
    have hpkf : StateInv { s with
        rbv := if src = .reorder then false else s.rbv
        pkf := s.pkf.writeFrom 0 (Config.im :: maskBytes (packCount src s) (packPixel src s))
        pklen := BitVec.ofNat 32 (1 + ceilDiv (packCount src s) 7)
        pkv := true
        draws := s.draws + 1 } :=
      { h with
        pkfForm := ⟨Memory.wf_writeFrom _ h.pkfForm.1 0, Memory.below_writeFrom _ h.pkfForm.2 (by
          have := ceilDiv_mono hcount 7
          rw [List.length_cons, length_maskBytes, Config.pkCap_eq]
          omega)⟩
        rbHolds := fun h₀ => h.rbHolds (by cases src with | reorder => cases h₀ | canvas => exact h₀)
        pkfHolds := fun _ => by
          refine ⟨packCount src s, hcount, hpklen, ?_⟩
          have hframe := holdsFrame_writeFrom s.pkf [Config.im] (maskBytes (packCount src s) (packPixel src s))
            fun _ => maskBytes_bit7
          rw [hpklen]
          rwa [List.length_singleton, length_maskBytes] at hframe }
    exact hend ▸ hpkf.done
  all_goals
    have hpkf : StateInv { startPack s with pkf := [] } := { h with pkfForm := by simp, pkfHolds := nofun }
    exact hend ▸ hpkf.raise _ _

theorem StateInv.frameStage {s : State} (h : StateInv s) : StateInv (frameStage s) := by
  rcases frameStage_ends s with ⟨hpkv, hend⟩ | ⟨-, hend⟩
  · obtain ⟨n, hn, hpklen, hpkf⟩ := h.pkfHolds hpkv
    obtain ⟨masks, hbytes, hmasks⟩ := packedBytes_of_holdsFrame hpkf
    have hlength : masks.length + 1 = s.pklen.toNat := by
      rw [← length_packedBytes, hbytes, List.length_cons]
    have hcap := two_add_ceilDiv_le hn
    have hwflen : (BitVec.ofNat 32 (s.pklen.toNat + 1)).toNat = 2 + ceilDiv n 7 := by
      rw [toNat_ofNat_word (by omega)]
      omega
    have hwfr : StateInv { s with
        pkv := false
        wfr := s.wfr.writeFrom 0 (Config.om :: packedBytes s)
        wflen := BitVec.ofNat 32 (s.pklen.toNat + 1)
        wfv := true
        draws := s.draws + 1 } :=
      { h with
        wfrForm := ⟨Memory.wf_writeFrom _ h.wfrForm.1 0, Memory.below_writeFrom _ h.wfrForm.2 (by
          rw [List.length_cons, length_packedBytes]
          omega)⟩
        pkfHolds := nofun
        wfrHolds := fun _ => by
          refine ⟨n, hn, hwflen, ?_⟩
          have hframe := holdsFrame_writeFrom s.wfr [Config.om, Config.im] masks hmasks
          have hlen : [Config.om, Config.im].length + masks.length = 2 + ceilDiv n 7 := by
            rw [List.length_cons, List.length_singleton]
            omega
          rw [hwflen, hbytes]
          rwa [hlen] at hframe }
    exact hend ▸ hwfr.done
  · have hwfr : StateInv { startFrame s with wfr := [] } := { h with wfrForm := by simp, wfrHolds := nofun }
    exact hend ▸ hwfr.raise _ _

/-! ### SPLIT -/

/-- The hand-overs of a paced frame move the log, the deadline and the time on, and keep them in order. -/
theorem StateInv.sent {s t : State} {recs : List TxRecord} {gap frame start : Nat} (h : StateInv s) (hsent : Sent s t recs)
    (hstart : s.now ≤ start) (hpaced : Paced gap frame start t.now recs) (hready : t.txReadyAt ≤ t.now) : StateInv t := by
  obtain ⟨-, -, -, -, htimes, hfinish⟩ := hpaced.facts
  rw [hsent]
  exact { h with
    deadline := hready
    logTimes := fun r hr => by
      rcases List.mem_append.1 hr with hr | hr
      · exact (h.logTimes r hr).imp_right fun hpast => hpast.trans (hstart.trans hfinish)
      · exact htimes r hr }

theorem StateInv.loopEnds {wire : List Byte} {m n left : Nat} {s t : State} (h : StateInv s)
    (hends : LoopEnds wire m n left s (.next t)) : StateInv t := by
  cases hends with
  | sent recs u _ _ _ paced _ frame _ ready => exact (h.sent frame (Nat.le_max_left ..) paced ready).done
  | failed f recs u _ _ _ _ paced _ frame _ ready => exact (h.sent frame (Nat.le_max_left ..) paced ready).raise _ _
  | reset f _ _ _ u log _ _ logOk _ =>
    refine .applyReset u fun r hr => ?_
    rcases logOk with rfl | ⟨q, rfl, horder, hend, -⟩
    · cases hr
    · obtain rfl := List.mem_singleton.1 hr
      exact ⟨horder, hend.le⟩

theorem StateInv.splitStage {s t : State} (h : StateInv s) (ht : splitStage s = .next t) : StateInv t := by
  rcases splitStage_ends s with ⟨-, hend⟩ | ⟨-, -, hend⟩ | ⟨-, -, hends⟩
  · obtain rfl := Host.Outcome.next.inj (hend.symm.trans ht)
    exact h.raise _ _
  · obtain rfl := Host.Outcome.next.inj (hend.symm.trans ht)
    exact h.raise _ _
  · have hwfr : StateInv (consumeWfr s) := { h with wfrHolds := nofun }
    exact hwfr.loopEnds (ht ▸ hends)

/-! ### The step -/

theorem StateInv.exec {i : Instr} {s t : State} (h : StateInv s) (ht : exec i s = .next t) : StateInv t := by
  refine exec_of_stages (R := fun s t => StateInv s → StateInv t)
    (Q := fun s o => StateInv s → ∀ t, o = .next t → StateInv t) ?next ?andThen ?build ?check ?map ?pack ?frame ?split i s h t ht
  case next => rintro s t hR h _ ⟨⟩; exact hR h
  case andThen => exact fun s t o hR _ hQ h => hQ (hR h)
  case build => exact fun s t ht h => h.execCfgbuild ht
  case check => exact fun s t ht h => h.execCfgcheck ht
  case map => exact fun s h => h.mapStage
  case pack => exact fun src s h => h.packStage src
  case frame => exact fun s h => h.frameStage
  case split => exact fun s h t ht => h.splitStage ht

theorem StateInv.hostCmd {w : Byte} {s t : State} (h : StateInv s) (ht : hostCmd w s = .next t) : StateInv t := by
  unfold Machine.hostCmd at ht
  split at ht
  · exact h.exec ht
  · obtain rfl := Host.Outcome.next.inj ht
    exact h.raise _ _

theorem StateInv.hostAction {a : HostAction} {s t : State} (h : StateInv s) (ht : hostAction a s = .next t) :
    StateInv t := by
  cases a with
  | regWrite n v => exact Host.Outcome.next.inj ht ▸ h.hostRegWrite n v
  | regRead n => exact Host.Outcome.next.inj ht ▸ h.hostRegRead n
  | memWrite sp i v => exact Host.Outcome.next.inj ht ▸ h.hostMemWrite sp i v
  | memRead sp i => exact Host.Outcome.next.inj ht ▸ h.hostMemRead sp i
  | cmd w => exact h.hostCmd ht
  | reset => exact Host.Outcome.next.inj ht ▸ .applyReset s (log := []) nofun

theorem mapNext_eq_next {f : State → State} {o : Host.Outcome State Fault Refusal} {t : State}
    (h : mapNext f o = .next t) : ∃ u, o = .next u ∧ f u = t := by
  cases o with
  | next u => exact ⟨u, rfl, Host.Outcome.next.inj h⟩
  | fault r => cases h
  | refused r => cases h

theorem StateInv.runEvent {ev : HostEvent} {s t : State} (h : StateInv s) (ht : runEvent ev s = .next t) : StateInv t := by
  obtain ⟨u, hu, rfl⟩ := mapNext_eq_next ht
  exact ((h.elapse ev.after).hostAction hu).elapse ev.busy

/-- Settles O50, one rule per host transaction (`StateInv.hostAction`) and, for the commands, one per stage (`StateInv.exec`). -/
theorem everyStepKeepsTheInvariant : Obligations.EveryStepKeepsTheInvariant := by
  unfold Obligations.EveryStepKeepsTheInvariant
  intro s t h ht
  cases hscript : s.script with
  | nil =>
    obtain rfl : s = t := by simpa [step, hscript] using ht
    exact h
  | cons ev rest =>
    rw [step_of_script hscript] at ht
    exact (h.withScript rest).runEvent ht

/-- Settles O9: the state after reset is what a reset makes of itself. -/
theorem resetStateMeetsTheInvariant : Obligations.ResetStateMeetsTheInvariant :=
  .applyReset State.reset (log := []) nofun

end Sys2Proof.Machine
end

section
/-! What a command reports (10_state.md R26) and what it leaves alone (R24, R27, R28, R30, R31), stage by stage. -/

namespace Sys2Proof.Machine

/-- A sink script that answers every chunk holds no reset. -/
theorem SinkAnswers.ne_reset {s : State} (h : SinkAnswers s) {k lag took : Nat} {seen : Option Cut} :
    s.sink[k]? ≠ some (.reset lag took seen) := by
  intro he
  obtain ⟨a, lag', took', h' | h'⟩ := h _ (List.mem_of_getElem? he)
  · cases h'
  · cases h'

/-- With a sink that answers, SPLIT reports on its state at the start, where a check failed, or on the state its hand-overs leave. -/
theorem splitStage_answered {s t : State} (h : SinkAnswers s) (ht : splitStage s = .next t) :
    ∃ u, (u = s ∨ ∃ recs, Sent (consumeWfr s) u recs) ∧ (t = done u ∨ ∃ e info, t = raise e info u) := by
  rcases splitStage_ends s with ⟨-, hend⟩ | ⟨-, -, hend⟩ | ⟨-, -, hends⟩
  · exact ⟨s, .inl rfl, .inr ⟨_, _, Host.Outcome.next.inj (ht.symm.trans hend)⟩⟩
  · exact ⟨s, .inl rfl, .inr ⟨_, _, Host.Outcome.next.inj (ht.symm.trans hend)⟩⟩
  · rw [ht] at hends
    cases hends with
    | sent recs u _ _ _ _ _ frame => exact ⟨u, .inr ⟨recs, frame⟩, .inl rfl⟩
    | failed f recs u _ _ _ _ _ _ frame => exact ⟨u, .inr ⟨recs, frame⟩, .inr ⟨_, _, rfl⟩⟩
    | reset f _ _ _ u log _ _ _ event =>
      obtain ⟨lag, took, seen, event⟩ := event
      exact absurd event h.ne_reset

/-! ### The report -/

/-- A command from `s` to `t` reports its result, and FAULTS gains its bit. -/
structure Reports (s t : State) : Prop where
  response : t.response = .result t.result
  okInfo : t.result = 0 → t.einfo = 0
  faults : t.faults = if t.result = 0 then s.faults else s.faults ||| BitVec.twoPow 8 t.result.toNat

theorem reports_done {s u : State} (h : u.faults = s.faults) : Reports s (done u) := ⟨rfl, fun _ => rfl, h⟩

theorem reports_raise {s u : State} (e : ErrKind) (info : Word) (h : u.faults = s.faults) : Reports s (raise e info u) where
  response := rfl
  okInfo h₀ := absurd h₀ (errCode_ne_zero e)
  faults := by
    rw [raise_result, if_neg (errCode_ne_zero e), ← h]
    rfl

/-- A stage that ended OK hands FAULTS on as it was (R180). -/
theorem Reports.andThen {s t v : State} (h : Reports s t) (hok : t.result = 0) (hv : Reports t v) : Reports s v where
  response := hv.response
  okInfo := hv.okInfo
  faults := by rw [hv.faults, h.faults, if_pos hok]

theorem execCfgcheck_reports {s t : State} (ht : execCfgcheck s = .next t) : Reports s t ∧ t.sink = s.sink := by
  by_cases hc : sfold s.cpkt.toList = 0
  · obtain rfl := Host.Outcome.next.inj ((execCfgcheck_ok hc).symm.trans ht)
    exact ⟨reports_done rfl, rfl⟩
  · obtain rfl := Host.Outcome.next.inj ((execCfgcheck_bad hc).symm.trans ht)
    exact ⟨reports_raise _ _ rfl, rfl⟩

theorem mapStage_reports (s : State) : Reports s (mapStage s) ∧ (mapStage s).sink = s.sink := by
  rcases mapStage_ends s with ⟨-, hend⟩ | ⟨-, e, info, -, hend⟩
  · exact hend ▸ ⟨reports_done rfl, rfl⟩
  · exact hend ▸ ⟨reports_raise _ _ rfl, rfl⟩

theorem packStage_reports (src : Src) (s : State) : Reports s (packStage src s) ∧ (packStage src s).sink = s.sink := by
  rcases packStage_ends src s with ⟨-, -, hend⟩ | ⟨-, -, hend⟩ | ⟨-, -, hend⟩
  · exact hend ▸ ⟨reports_done rfl, rfl⟩
  · exact hend ▸ ⟨reports_raise _ _ rfl, rfl⟩
  · exact hend ▸ ⟨reports_raise _ _ rfl, rfl⟩

theorem frameStage_reports (s : State) : Reports s (frameStage s) ∧ (frameStage s).sink = s.sink := by
  rcases frameStage_ends s with ⟨-, hend⟩ | ⟨-, hend⟩
  · exact hend ▸ ⟨reports_done rfl, rfl⟩
  · exact hend ▸ ⟨reports_raise _ _ rfl, rfl⟩

theorem splitStage_reports {s t : State} (h : SinkAnswers s) (ht : splitStage s = .next t) : Reports s t := by
  obtain ⟨u, hu, hend⟩ := splitStage_answered h ht
  have hfaults : u.faults = s.faults := by
    rcases hu with rfl | ⟨recs, hsent⟩
    · rfl
    · rw [hsent]
      rfl
  rcases hend with rfl | ⟨e, info, rfl⟩
  · exact reports_done hfaults
  · exact reports_raise e info hfaults

theorem exec_reports {i : Instr} {s t : State} (h : SinkAnswers s) (ht : exec i s = .next t) : Reports s t := by
  refine exec_of_stages (R := fun s t => Reports s t ∧ t.sink = s.sink)
    (Q := fun s o => SinkAnswers s → ∀ t, o = .next t → Reports s t) ?next ?andThen ?build ?check ?map ?pack ?frame ?split i s h t ht
  case next =>
    rintro s t ⟨hR, -⟩ - _ ⟨⟩
    exact hR
  case andThen =>
    rintro s t o ⟨hR, hsink⟩ hok hQ h v hv
    exact hR.andThen hok (hQ (by rwa [SinkAnswers, hsink]) v hv)
  case build =>
    intro s t ht
    obtain rfl := Host.Outcome.next.inj ht
    exact ⟨reports_done rfl, rfl⟩
  case check => exact fun s t ht => execCfgcheck_reports ht
  case map => exact mapStage_reports
  case pack => exact packStage_reports
  case frame => exact frameStage_reports
  case split => exact fun s h t ht => splitStage_reports h ht

/-- Settles O43: each stage reports, and one that ended OK hands FAULTS on as it was (`exec_reports`). -/
theorem faultsRecordEveryError : Obligations.FaultsRecordEveryError := by
  unfold Obligations.FaultsRecordEveryError
  intro i s t h ht
  obtain ⟨hresponse, hinfo, hfaults⟩ := exec_reports h ht
  exact ⟨hresponse, hinfo, hfaults⟩

/-! ### The configuration -/

/-- The reset state with the registers, memories and inputs of `s` that no frame command writes: two states agree in those fields when
their configurations are equal. -/
def configuration (s : State) : State :=
  { State.reset with
    cfg := s.cfg
    cpkt := s.cpkt
    fold := s.fold
    w := s.w
    h := s.h
    pw := s.pw
    ph := s.ph
    np := s.np
    maxchunk := s.maxchunk
    paceGap := s.paceGap
    paceFrame := s.paceFrame
    lut := s.lut
    fb := s.fb
    script := s.script }

theorem configuration_eq_iff {s t : State} : configuration t = configuration s ↔
    t.cfg = s.cfg ∧ t.cpkt = s.cpkt ∧ t.fold = s.fold ∧ t.w = s.w ∧ t.h = s.h ∧ t.pw = s.pw ∧ t.ph = s.ph ∧ t.np = s.np ∧
      t.maxchunk = s.maxchunk ∧ t.paceGap = s.paceGap ∧ t.paceFrame = s.paceFrame ∧ t.lut = s.lut ∧ t.fb = s.fb ∧
      t.script = s.script := by
  simp only [configuration, State.mk.injEq, true_and, and_true]

theorem mapStage_configuration (s : State) : configuration (mapStage s) = configuration s := by
  rcases mapStage_ends s with ⟨-, hend⟩ | ⟨-, e, info, -, hend⟩
  · exact hend ▸ rfl
  · exact hend ▸ rfl

theorem packStage_configuration (src : Src) (s : State) : configuration (packStage src s) = configuration s := by
  rcases packStage_ends src s with ⟨-, -, hend⟩ | ⟨-, -, hend⟩ | ⟨-, -, hend⟩
  · exact hend ▸ rfl
  · exact hend ▸ rfl
  · exact hend ▸ rfl

theorem frameStage_configuration (s : State) : configuration (frameStage s) = configuration s := by
  rcases frameStage_ends s with ⟨-, hend⟩ | ⟨-, hend⟩
  · exact hend ▸ rfl
  · exact hend ▸ rfl

theorem splitStage_configuration {s t : State} (h : SinkAnswers s) (ht : splitStage s = .next t) :
    configuration t = configuration s := by
  obtain ⟨u, hu, hend⟩ := splitStage_answered h ht
  have hconfig : configuration u = configuration s := by
    rcases hu with rfl | ⟨recs, hsent⟩
    · rfl
    · rw [hsent]
      rfl
  rcases hend with rfl | ⟨e, info, rfl⟩
  · exact hconfig
  · exact hconfig

/-- The next state of an outcome, if there is one, has the configuration of `s`, which SPLIT promises only with a sink that answers. -/
def KeepsConfiguration (s : State) (o : Host.Outcome State Fault Refusal) : Prop :=
  SinkAnswers s → ∀ t, o = .next t → configuration t = configuration s

/-- After a stage that keeps the configuration and the sink, a further one that keeps the configuration keeps it from the start (R180). -/
theorem thenStage_keepsConfiguration {s t : State} {f : State → Host.Outcome State Fault Refusal}
    (hconfig : configuration t = configuration s) (hsink : t.sink = s.sink) (hf : ∀ u, KeepsConfiguration u (f u)) :
    KeepsConfiguration s (thenStage t f) := by
  intro h v hv
  unfold thenStage at hv
  split_ifs at hv
  · exact (hf t (by rwa [SinkAnswers, hsink]) v hv).trans hconfig
  · exact Host.Outcome.next.inj hv ▸ hconfig

theorem execRun_keepsConfiguration (src : Src) (s : State) : KeepsConfiguration s (execRun src s) := by
  have rest : ∀ u, KeepsConfiguration u (thenStage (packStage src u) fun v => thenStage (frameStage v) splitStage) := fun u =>
    thenStage_keepsConfiguration (packStage_configuration src u) (packStage_reports src u).2 fun v =>
      thenStage_keepsConfiguration (frameStage_configuration v) (frameStage_reports v).2 fun _ h _ ht =>
        splitStage_configuration h ht
  cases src with
  | reorder => exact thenStage_keepsConfiguration (mapStage_configuration s) (mapStage_reports s).2 rest
  | canvas => exact rest s

theorem exec_keepsConfiguration {i : Instr} (hbuild : i ≠ .cfgbuild) (hcheck : i ≠ .cfgcheck) (s : State) :
    KeepsConfiguration s (exec i s) := by
  cases i with
  | cfgbuild => exact absurd rfl hbuild
  | cfgcheck => exact absurd rfl hcheck
  | map => exact fun _ t ht => Host.Outcome.next.inj ht ▸ mapStage_configuration s
  | pack src => exact fun _ t ht => Host.Outcome.next.inj ht ▸ packStage_configuration src s
  | frame => exact fun _ t ht => Host.Outcome.next.inj ht ▸ frameStage_configuration s
  | split => exact fun h t ht => splitStage_configuration h ht
  | run src => exact execRun_keepsConfiguration src s

theorem execCfgcheck_configuration {s t : State} (ht : execCfgcheck s = .next t) :
    configuration t = configuration { s with fold := t.fold } := by
  by_cases hc : sfold s.cpkt.toList = 0
  · exact Host.Outcome.next.inj ((execCfgcheck_ok hc).symm.trans ht) ▸ rfl
  · exact Host.Outcome.next.inj ((execCfgcheck_bad hc).symm.trans ht) ▸ rfl

/-- Only CPKT and FOLD of the configuration can move, and these only by the CFU. -/
theorem exec_configuration {i : Instr} {s t : State} (h : SinkAnswers s) (ht : exec i s = .next t) :
    configuration t = configuration { s with cpkt := t.cpkt, fold := t.fold } ∧
      (i ≠ .cfgbuild → t.cpkt = s.cpkt) ∧ (i ≠ .cfgbuild → i ≠ .cfgcheck → t.fold = s.fold) := by
  by_cases hbuild : i = .cfgbuild
  · subst hbuild
    obtain rfl := Host.Outcome.next.inj ht
    exact ⟨rfl, absurd rfl, absurd rfl⟩
  by_cases hcheck : i = .cfgcheck
  · subst hcheck
    have hconfig := execCfgcheck_configuration ht
    obtain ⟨-, hcpkt, -⟩ := configuration_eq_iff.1 hconfig
    exact ⟨by rw [hcpkt, hconfig], fun _ => hcpkt, fun _ => absurd rfl⟩
  · have hconfig := exec_keepsConfiguration hbuild hcheck s h t ht
    obtain ⟨-, hcpkt, hfold, -⟩ := configuration_eq_iff.1 hconfig
    exact ⟨by rw [hcpkt, hfold, hconfig], fun _ => hcpkt, fun _ _ => hfold⟩

/-- Settles O46: the fields of the configuration one by one (`exec_configuration`). -/
theorem commandsLeaveTheConfigurationAlone : Obligations.CommandsLeaveTheConfigurationAlone := by
  unfold Obligations.CommandsLeaveTheConfigurationAlone
  intro i s t h ht
  obtain ⟨hconfig, hcpkt, hfold⟩ := exec_configuration h ht
  obtain ⟨hcfg, -, -, hw, hh, hpw, hph, hnp, hmaxchunk, hgap, hframe, hlut, hfb, hscript⟩ := configuration_eq_iff.1 hconfig
  exact ⟨hcfg, hw, hh, hpw, hph, hnp, hmaxchunk, hgap, hframe, hlut, hfb, hscript, hcpkt, hfold⟩

end Sys2Proof.Machine
end

section
/-! The register map read through the host port (10_state.md R37), and the values after reset (R38). -/

namespace Sys2Proof.Machine

theorem portValue_of_regOfNumber {n : Byte} {r : Reg} (h : regOfNumber n = some r) (s : State) :
    portValue n s = readReg r s := by
  simp only [portValue, h]

theorem portValue_of_reserved {n : Byte} (h : regOfNumber n = none) (s : State) : portValue n s = 0 := by
  simp only [portValue, h]

/-- The number of a register reads that register. -/
theorem portValue_regNumber (r : Reg) (s : State) : portValue (regNumber r) s = readReg r s :=
  portValue_of_regOfNumber (regOfNumber_regNumber r) s

/-- VALID is WFV, PKV, RBV in bits 2, 1, 0 (R25). -/
theorem readReg_valid (s : State) :
    readReg .valid s = (if s.wfv then 4 else 0) + (if s.pkv then 2 else 0) + (if s.rbv then 1 else 0) := by
  unfold readReg validRegister
  cases s.wfv <;> cases s.pkv <;> cases s.rbv <;> rfl

/-- The reserved numbers of R37 name no register. -/
theorem regOfNumber_reserved : ∀ n : Byte,
    n ∈ [0x0C, 0x0D, 0x0E, 0x0F, 0x1D, 0x1E, 0x1F, 0x39, 0x3A, 0x3B, 0x3C, 0x3D] ∨
      (0x28 ≤ n.toNat ∧ n.toNat < 0x30) ∨ 0x40 ≤ n.toNat → regOfNumber n = none := by decide

/-- Settles O10: a register by its number (`portValue_regNumber`), 0 for a reserved number. -/
theorem registerMapNamesEachRegister : Obligations.RegisterMapNamesEachRegister := by
  unfold Obligations.RegisterMapNamesEachRegister
  intro s
  have reg (r : Reg) : portValue (regNumber r) s = readReg r s := portValue_regNumber r s
  exact ⟨fun i h => reg (.cfg ⟨i, h⟩), fun i h => reg (.cpkt ⟨i, h⟩), reg .w, reg .h, reg .pw, reg .ph, reg .np,
    reg .maxchunk, reg .paceGap, reg .paceFrame, reg .result, reg .einfo, reg .faults,
    (reg .valid).trans (readReg_valid s), reg .fold, reg .rblen, reg .pklen, reg .wflen, reg .nchunk, reg .omark, reg .imark,
    fun n hn => portValue_of_reserved (regOfNumber_reserved n hn) s⟩

/-- After reset every register but the two marks reads 0 (R38). -/
theorem readReg_reset {r : Reg} (hom : r ≠ .omark) (him : r ≠ .imark) : readReg r State.reset = 0 := by
  cases r with
  | cfg i | cpkt i => simp [readReg]
  | omark => exact absurd rfl hom
  | imark => exact absurd rfl him
  | _ => rfl

theorem reset_registersReset : RegistersReset State.reset := by
  intro n
  split_ifs with hom him
  · exact hom ▸ portValue_regNumber .omark State.reset
  · exact him ▸ portValue_regNumber .imark State.reset
  · cases hn : regOfNumber n with
    | none => exact portValue_of_reserved hn State.reset
    | some r =>
      have hnumber : regNumber r = n := regNumber_of_regOfNumber n r hn
      rw [portValue_of_regOfNumber hn]
      exact readReg_reset (fun hr => hom (by rw [← hnumber, hr]; rfl)) (fun hr => him (by rw [← hnumber, hr]; rfl))

theorem reset_memoriesUndefined : MemoriesUndefined State.reset := fun _ => ⟨rfl, rfl, rfl, rfl, rfl⟩

/-- Settles O8: the registers are those of `reset_registersReset`, the rest holds by the definition of the state. -/
theorem resetStateHoldsTheResetValues : Obligations.ResetStateHoldsTheResetValues :=
  ⟨reset_registersReset, rfl, rfl, rfl, rfl, rfl, reset_memoriesUndefined⟩

end Sys2Proof.Machine
end

section
/-! The host port's register and memory transactions (20_memory.md R62, R63, R65, R78; 93_implementation_defined.md U3): one equation per
transaction and case, and from them the steps that make them. -/

namespace Sys2Proof.Machine

/-- A step whose transaction returns: the event's two times around the transaction (R61). -/
theorem step_of_hostAction {s t : State} {after busy : Nat} {a : HostAction} {rest : List HostEvent}
    (hscript : s.script = ⟨after, a, busy⟩ :: rest)
    (ht : hostAction a { s with script := rest, now := s.now + after } = .next t) : step s = .next (elapse busy t) := by
  rw [step_of_script hscript]
  exact congrArg (mapNext (elapse busy)) ht

/-- The mark is sticky, and nothing else changes (log 9). -/
theorem markUnless_false (s : State) : markUnless false s = { s with offInterface := true } := by
  simp [markUnless]

theorem markUnless_true (s : State) : markUnless true s = s := by
  simp [markUnless]

/-! ### What the host reads of the registers -/

/-- The port sees a state through its registers alone. -/
theorem portValue_congr {s t : State} (h : ∀ r, readReg r t = readReg r s) (n : Byte) : portValue n t = portValue n s := by
  cases hn : regOfNumber n with
  | none => rw [portValue_of_reserved hn, portValue_of_reserved hn]
  | some r => rw [portValue_of_regOfNumber hn, portValue_of_regOfNumber hn, h r]

@[simp] theorem portValue_elapse (n : Byte) (k : Nat) (s : State) : portValue n (elapse k s) = portValue n s :=
  portValue_congr (fun r => readReg_elapse r k s) n

@[simp] theorem portValue_respond (n : Byte) (r : Response) (s : State) : portValue n (respond r s) = portValue n s :=
  portValue_congr (fun q => readReg_respond q r s) n

@[simp] theorem portValue_markUnless (n : Byte) (ok : Bool) (s : State) : portValue n (markUnless ok s) = portValue n s :=
  portValue_congr (fun r => readReg_markUnless r ok s) n

/-- No register is among the script and the time. -/
@[simp] theorem portValue_issued (n : Byte) (rest : List HostEvent) (k : Nat) (s : State) :
    portValue n { s with script := rest, now := k } = portValue n s :=
  portValue_congr (fun r => by cases r <;> rfl) n

/-! ### The register transactions -/

/-- A register read responds with the port's value, and marks a reserved number (R63, log 9). -/
theorem hostRegRead_eq (n : Byte) (s : State) :
    hostRegRead n s = respond (.value (portValue n s)) (markUnless (regOfNumber n).isSome s) := by
  cases hn : regOfNumber n with
  | none =>
    rw [portValue_of_reserved hn]
    simp only [hostRegRead, hn, Option.isSome_none]
  | some r =>
    rw [portValue_of_regOfNumber hn, Option.isSome_some, markUnless_true]
    simp only [hostRegRead, hn]

theorem hostRegWrite_of_reserved {n : Byte} (h : regOfNumber n = none) (v : Word) (s : State) :
    hostRegWrite n v s = respond .nothing (markUnless false s) := by
  simp only [hostRegWrite, h]

theorem hostRegWrite_of_regOfNumber {n : Byte} {r : Reg} (h : regOfNumber n = some r) (v : Word) (s : State) :
    hostRegWrite n v s = respond .nothing (markUnless r.writable (writeReg r v s)) := by
  simp only [hostRegWrite, h]

/-- The widths by number and by register agree (10_state.md R37). -/
theorem rwWidth_regNumber (r : Reg) : rwWidth (regNumber r) = regWidth r := by
  cases r with
  | cfg i | cpkt i => revert i; decide
  | _ => rfl

theorem rwWidth_of_regOfNumber {n : Byte} {r : Reg} (h : regOfNumber n = some r) : rwWidth n = regWidth r := by
  rw [← regNumber_of_regOfNumber n r h, rwWidth_regNumber]

theorem rwWidth_of_reserved : ∀ n : Byte, regOfNumber n = none → rwWidth n = 0 := by decide

/-- What the port reads after a register write (R62, R63). -/
theorem portValue_hostRegWrite (m n : Byte) (v : Word) (s : State) :
    portValue m (hostRegWrite n v s) =
      if m = n ∧ rwWidth n ≠ 0 then BitVec.ofNat 32 (v.toNat % 2 ^ rwWidth n) else portValue m s := by
  cases hn : regOfNumber n with
  | none => simp [hostRegWrite_of_reserved hn, rwWidth_of_reserved n hn]
  | some r =>
    rw [hostRegWrite_of_regOfNumber hn, portValue_respond, portValue_markUnless, rwWidth_of_regOfNumber hn]
    cases hm : regOfNumber m with
    | none =>
      have hne : m ≠ n := fun h => by simp [h, hn] at hm
      rw [portValue_of_reserved hm, portValue_of_reserved hm, if_neg (fun h => hne h.1)]
    | some q =>
      have hsame : q = r ↔ m = n :=
        ⟨fun h => regOfNumber_inj (h ▸ hm) hn, fun h => by simpa [h, hn, eq_comm] using hm⟩
      rw [portValue_of_regOfNumber hm, portValue_of_regOfNumber hm, readReg_writeReg]
      simp only [hsame, regWidth_ne_zero]

/-- A register write reaches no flag, fault, length, memory, log or deadline (R62). -/
theorem hostRegWrite_frame (n : Byte) (v : Word) (s : State) :
    hostRegWrite n v s = { s with
      cfg := (hostRegWrite n v s).cfg
      cpkt := (hostRegWrite n v s).cpkt
      w := (hostRegWrite n v s).w
      h := (hostRegWrite n v s).h
      pw := (hostRegWrite n v s).pw
      ph := (hostRegWrite n v s).ph
      np := (hostRegWrite n v s).np
      maxchunk := (hostRegWrite n v s).maxchunk
      paceGap := (hostRegWrite n v s).paceGap
      paceFrame := (hostRegWrite n v s).paceFrame
      response := .nothing
      offInterface := (hostRegWrite n v s).offInterface } := by
  cases hn : regOfNumber n with
  | none => rw [hostRegWrite_of_reserved hn]; rfl
  | some r =>
    rw [hostRegWrite_of_regOfNumber hn]
    cases r <;> rfl

/-- Settles O12: what the port reads afterwards is `portValue_hostRegWrite`, what stays is `hostRegWrite_frame`. -/
theorem registerWriteReachesOnlyItsRegister : Obligations.RegisterWriteReachesOnlyItsRegister := by
  unfold Obligations.RegisterWriteReachesOnlyItsRegister
  intro s after busy n v rest hscript
  refine ⟨_, step_of_hostAction hscript rfl, fun m => ?_, congrArg (elapse busy) (hostRegWrite_frame n v _)⟩
  rw [portValue_elapse, portValue_hostRegWrite, portValue_issued]

/-- Settles O11: the response is the port's value (`hostRegRead_eq`), and no register is touched. -/
theorem registerReadHasNoSideEffect : Obligations.RegisterReadHasNoSideEffect := by
  unfold Obligations.RegisterReadHasNoSideEffect
  intro s after busy n rest hscript
  refine ⟨_, step_of_hostAction hscript (congrArg Host.Outcome.next (hostRegRead_eq n _)), ?_, ?_⟩
  · simp only [portValue_elapse, portValue_respond, portValue_markUnless, portValue_issued]
  · rw [portValue_issued]; rfl

/-! ### The memory transactions -/

theorem hostMemWrite_fb {i : Nat} (h : i < Config.fbDepth) (v : Word) (s : State) :
    hostMemWrite .fb i v s =
      respond .nothing (markUnless (decide (v.toNat ≤ Config.sampleMax)) { s with fb := s.fb.write i (v.setWidth 8) }) :=
  if_pos h

theorem hostMemWrite_lut {i : Nat} (h : i < Config.lutDepth) (v : Word) (s : State) :
    hostMemWrite .lut i v s = respond .nothing { s with lut := s.lut.write i (v.setWidth 16) } :=
  if_pos h

/-- A write that the interface does not offer stores nothing (R65, U3). -/
theorem hostMemWrite_ignored {sp : Space} {i : Nat} (h : capacity sp ≤ i ∨ sp = .rb ∨ sp = .pkf ∨ sp = .wfr)
    (v : Word) (s : State) : hostMemWrite sp i v s = respond .nothing (markUnless false s) := by
  cases sp with
  | lut => exact if_neg (Nat.not_lt.2 (by simpa [capacity] using h))
  | fb => exact if_neg (Nat.not_lt.2 (by simpa [capacity] using h))
  | rb | pkf | wfr => rfl

theorem hostMemRead_below {sp : Space} {i : Nat} (h : i < capacity sp) (s : State) :
    hostMemRead sp i s =
      respond (.value (hostCell sp i s)) (markUnless (hostMayRead sp i s) { s with draws := s.draws + 1 }) :=
  if_pos h

theorem hostMemRead_past {sp : Space} {i : Nat} (h : capacity sp ≤ i) (s : State) :
    hostMemRead sp i s = respond (.value 0) (markUnless false s) :=
  if_neg (Nat.not_lt.2 h)

/-- Settles O13: the cell is stored by `Memory.write`, so `Memory.read_write` says what each cell reads afterwards. -/
theorem memoryWriteStoresOneElement : Obligations.MemoryWriteStoresOneElement := by
  unfold Obligations.MemoryWriteStoresOneElement
  intro s after busy i v rest
  constructor
  · intro hscript hi
    refine ⟨_, step_of_hostAction hscript (congrArg Host.Outcome.next (hostMemWrite_fb hi v _)), fun j => ?_, rfl⟩
    rw [BitVec.ofNat_toNat]
    exact Memory.read_write s.fb i j (v.setWidth 8)
  · intro hscript hi
    refine ⟨_, step_of_hostAction hscript (congrArg Host.Outcome.next (hostMemWrite_lut hi v _)), fun j => ?_, rfl⟩
    rw [BitVec.ofNat_toNat]
    exact Memory.read_write s.lut i j (v.setWidth 16)

/-- Settles O16: such a read and such a write only respond and set the mark (`markUnless_false`). -/
theorem accessOutsideTheInterfaceIsIgnored : Obligations.AccessOutsideTheInterfaceIsIgnored := by
  unfold Obligations.AccessOutsideTheInterfaceIsIgnored
  intro s after busy sp i v rest
  constructor
  · intro hscript hi
    rw [step_of_hostAction hscript (congrArg Host.Outcome.next (hostMemRead_past hi _)), markUnless_false]
    rfl
  · intro hscript hoff
    rw [step_of_hostAction hscript (congrArg Host.Outcome.next (hostMemWrite_ignored hoff v _)), markUnless_false]
    rfl

/-! ### The element a host read returns (R78) -/

section
variable {s : State} {i : Nat}

theorem hostCell_lut {e : Half} (h : s.lut.read i = some e) : hostCell .lut i s = e.setWidth 32 := by
  simp [hostCell, readLut, h]

theorem hostCell_fb {b : Byte} (h : s.fb.read i = some b) : hostCell .fb i s = b.setWidth 32 := by
  simp [hostCell, readFb, h]

/-- A cell behind a set flag and below the length is the buffer's own. -/
theorem bufferCell_defined {valid : Bool} {len : Word} (hv : valid = true) (hi : i < len.toNat) (cell free : Byte) :
    bufferCell valid len cell free i = cell :=
  if_pos ⟨hv, hi⟩

theorem hostCell_rb {b : Byte} (hv : s.rbv = true) (hi : i < s.rblen.toNat) (h : s.rb.read i = some b) :
    hostCell .rb i s = b.setWidth 32 := by
  simp [hostCell, bufferCell_defined hv hi, readRb, h]

theorem hostCell_pkf {b : Byte} (hv : s.pkv = true) (hi : i < s.pklen.toNat) (h : s.pkf.read i = some b) :
    hostCell .pkf i s = b.setWidth 32 := by
  simp [hostCell, bufferCell_defined hv hi, readPkf, h]

theorem hostCell_wfr {b : Byte} (hv : s.wfv = true) (hi : i < s.wflen.toNat) (h : s.wfr.read i = some b) :
    hostCell .wfr i s = b.setWidth 32 := by
  simp [hostCell, bufferCell_defined hv hi, readWfr, h]

end

/-- No memory is among the script and the time. -/
theorem hostCell_issued (sp : Space) (i : Nat) (rest : List HostEvent) (k : Nat) (s : State) :
    hostCell sp i { s with script := rest, now := k } = hostCell sp i s := by
  cases sp <;> rfl

/-- Settles O15: below the capacity the response is `hostCell`, the defined value of its space where there is one. -/
theorem memoryReadReturnsTheElement : Obligations.MemoryReadReturnsTheElement := by
  unfold Obligations.MemoryReadReturnsTheElement
  intro s after busy sp i rest hscript hi
  refine ⟨_, hostCell sp i s, step_of_hostAction hscript (congrArg Host.Outcome.next (hostMemRead_below hi _)),
    fun e hsp h => hsp ▸ hostCell_lut h, fun b hsp h => hsp ▸ hostCell_fb h,
    fun b hsp hv hlen h => hsp ▸ hostCell_rb hv hlen h, fun b hsp hv hlen h => hsp ▸ hostCell_pkf hv hlen h,
    fun b hsp hv hlen h => hsp ▸ hostCell_wfr hv hlen h, ?_⟩
  rw [hostCell_issued]
  rfl

end Sys2Proof.Machine
end

section
/-! The command word (30_encoding.md R91, R92, R93): encoding undoes decoding, so the legal words are the nine words of the commands, and a
word outside them only reports itself. -/

namespace Sys2Proof

theorem joinWord_splitWord (w : Byte) : joinWord (splitWord w) = w := by
  revert w
  decide

@[simp] theorem bit_srcOfBit (b : BitVec 1) : (srcOfBit b).bit = b := by
  revert b
  decide

/-- A command that the decoder finds has the very OP and SRC it was found by: a plain command only where SRC is 0, PACK and RUN (cases 4
and 7) with either SRC. -/
theorem fields_of_decodeOp {op : BitVec 4} {src : BitVec 1} {i : Instr} (h : decodeOp op src = .ok i) :
    i.fields = ⟨0, src, op⟩ := by
  have hop : op = BitVec.ofNat 4 op.toNat := by simp
  unfold decodeOp at h
  extract_lets plain at h
  have of_plain {j : Instr} (hj : plain j = .ok i) : src = 0 ∧ j = i := by
    unfold plain at hj
    split_ifs at hj with hsrc
    exact ⟨hsrc, Except.ok.inj hj⟩
  split at h
  all_goals rename_i hnumber
  case h_4 | h_7 =>
    obtain rfl := Except.ok.inj h
    rw [hop, hnumber, Instr.fields, bit_srcOfBit]
    rfl
  case h_8 => cases h
  all_goals
    obtain ⟨rfl, rfl⟩ := of_plain h
    rw [hop, hnumber]
    rfl

/-- A legal word is the word of the command it selects (R91). -/
theorem encode_of_decode {w : Byte} {i : Instr} (h : decode w = .ok i) : encode i = w := by
  simp only [decode] at h
  split_ifs at h with hzero
  have hfields : i.fields = splitWord w := by
    rw [fields_of_decodeOp h, ← hzero]
  rw [encode, hfields, joinWord_splitWord]

theorem decode_eq_ok_iff (w : Byte) (i : Instr) : decode w = .ok i ↔ encode i = w :=
  ⟨encode_of_decode, fun h => h ▸ decode_encode i⟩

/-- Settles O3: one direction is `encode_of_decode`, the other `decode_encode`. -/
theorem decodeAndEncodeAgree : Obligations.DecodeAndEncodeAgree := decode_eq_ok_iff

/-- Settles O2: each of the nine words is its command's (`decode_encode`); the three others fail a check each. -/
theorem commandWordsDecodeToTheirCommands : Obligations.CommandWordsDecodeToTheirCommands :=
  ⟨decode_encode .cfgbuild, decode_encode .cfgcheck, decode_encode .map, decode_encode (.pack .reorder),
    decode_encode (.pack .canvas), decode_encode .frame, decode_encode .split, decode_encode (.run .reorder),
    decode_encode (.run .canvas), rfl, rfl, rfl⟩

/-! ### The command table -/

/-- The full mask keeps every bit, so its row holds one word. -/
theorem and_fullMask_iff (w : Byte) (i : Instr) : w &&& 0xFF = encode i ↔ decode w = .ok i := by
  rw [decode_eq_ok_iff, show w &&& 0xFF = w from BitVec.and_allOnes, eq_comm]

/-- The mask of PACK and RUN leaves SRC out, so a row of theirs holds two words. -/
theorem and_srcMask_iff : ∀ m ∈ ([0x04, 0x07] : List Byte), ∀ w : Byte,
    w &&& 0xEF = m ↔ m = w ∨ m ||| 0x10 = w := by decide

/-- Settles O4: a row with the full mask is one word (`and_fullMask_iff`), a row of PACK or RUN two (`and_srcMask_iff`). -/
theorem wordSelectsTheRowOfItsMaskAndMatch : Obligations.WordSelectsTheRowOfItsMaskAndMatch := by
  unfold Obligations.WordSelectsTheRowOfItsMaskAndMatch
  intro w
  refine ⟨and_fullMask_iff w .cfgbuild, and_fullMask_iff w .cfgcheck, and_fullMask_iff w .map, ?pack,
    and_fullMask_iff w .frame, and_fullMask_iff w .split, ?run⟩
  case pack =>
    rw [decode_eq_ok_iff, decode_eq_ok_iff]
    exact and_srcMask_iff 0x04 (by decide) w
  case run =>
    rw [decode_eq_ok_iff, decode_eq_ok_iff]
    exact and_srcMask_iff 0x07 (by decide) w

/-! ### The illegal words -/

/-- The nine legal words (R91, R93). -/
def legalWords : List Byte := [0x01, 0x02, 0x03, 0x04, 0x14, 0x05, 0x06, 0x07, 0x17]

theorem encode_mem_legalWords (i : Instr) : encode i ∈ legalWords := by
  cases i with
  | cfgbuild | cfgcheck | map | frame | split => decide
  | pack src | run src => cases src <;> decide

theorem decode_error_of_notMem_legalWords {w : Byte} (h : w ∉ legalWords) : ∃ r, decode w = .error r := by
  cases hw : decode w with
  | ok i => exact absurd (encode_of_decode hw ▸ encode_mem_legalWords i) h
  | error r => exact ⟨r, rfl⟩

namespace Machine

theorem hostCmd_of_decode_error {w : Byte} {r : Reject} (h : decode w = .error r) (s : State) :
    hostCmd w s = .next (raise .cmd (BitVec.ofNat 32 w.toNat) s) := by
  simp only [hostCmd, h, BitVec.ofNat_toNat]

/-- Settles O5: a word outside the nine does not decode (`decode_error_of_notMem_legalWords`), so `Cmd` raises E_CMD and does
nothing more. -/
theorem illegalWordOnlyReportsItself : Obligations.IllegalWordOnlyReportsItself := by
  unfold Obligations.IllegalWordOnlyReportsItself
  intro s after busy w rest hscript hw
  obtain ⟨r, hr⟩ := decode_error_of_notMem_legalWords hw
  rw [step_of_hostAction hscript (hostCmd_of_decode_error hr _)]
  rfl

end Machine
end Sys2Proof
end

section
/-! The number of a LUT entry (30_encoding.md R105). -/

namespace Sys2Proof.Machine

theorem originOf_eq (e : Half) : originOf e = (e.toNat % 256, e.toNat / 256) := by
  have hy : e.toNat / 256 % 256 = e.toNat / 256 := Nat.mod_eq_of_lt (by omega)
  simp [originOf, BitVec.extractLsb'_toNat, Nat.shiftRight_eq_div_pow, hy]

/-- Settles O14: `x` is the remainder and `y` the quotient of the entry by 256 (`originOf_eq`). -/
theorem lutEntryHoldsItsOrigin : Obligations.LutEntryHoldsItsOrigin := by
  unfold Obligations.LutEntryHoldsItsOrigin
  intro x y hx hy
  have hentry : 256 * y + x < 2 ^ 16 := by omega
  rw [originOf_eq, BitVec.toNat_ofNat, Nat.mod_eq_of_lt hentry, Prod.mk.injEq]
  omega

end Sys2Proof.Machine
end

section
/-! PACK on an accepted source (30_encoding.md R97; 41_pack_frame.md R130, R133): what each cell of PKF holds afterwards. -/

namespace Sys2Proof.Machine

theorem isMaskByte_groupMask (n : Nat) (pixel : Nat → Byte) (g : Nat) : IsMaskByte n pixel g (groupMask n pixel g) := by
  refine ⟨by rw [groupMask_bit]; simp, fun k hk => ?_⟩
  rw [groupMask_bit, decide_eq_true_iff, isOn_iff, and_iff_right hk]

/-! ### The cells of a PackedFrame -/

section
variable (m : Memory 8) (n : Nat) (pixel : Nat → Byte)

theorem read_packed_mark : (m.writeFrom 0 (Config.im :: maskBytes n pixel)).read 0 = some Config.im :=
  Memory.read_writeFrom_lt m (Nat.succ_pos _)

theorem read_packed_mask {g : Nat} (hg : g < ceilDiv n 7) :
    (m.writeFrom 0 (Config.im :: maskBytes n pixel)).read (1 + g) = some (groupMask n pixel g) := by
  rw [Nat.add_comm, Memory.read_writeFrom_lt m (by simpa using hg)]
  simp [maskBytes]

theorem read_packed_past {i : Nat} (hi : 1 + ceilDiv n 7 ≤ i) :
    (m.writeFrom 0 (Config.im :: maskBytes n pixel)).read i = m.read i :=
  Memory.read_writeFrom_ge m (by rw [List.length_cons, length_maskBytes]; omega)

end

/-! ### The length of a PackedFrame -/

theorem packCount_lt (src : Src) (s : State) : packCount src s < 2 ^ 32 := by
  cases src with
  | reorder => exact s.rblen.isLt
  | canvas => exact pixelCount_lt s

/-- PKLEN does not wrap: seven pixels go into a byte. -/
theorem toNat_packedLength (src : Src) (s : State) :
    (BitVec.ofNat 32 (1 + ceilDiv (packCount src s) 7)).toNat = 1 + ceilDiv (packCount src s) 7 := by
  have hcount : packCount src s < 2 ^ 32 := packCount_lt src s
  exact Nat.mod_eq_of_lt (by unfold ceilDiv; omega)

/-- Settles O22: PACK ends as `packStage_ok` says, and `read_packed_mark`, `read_packed_mask` and `read_packed_past` say what each cell
of PKF then holds. -/
theorem packWritesMarkerAndMaskBytes : Obligations.PackWritesMarkerAndMaskBytes := by
  unfold Obligations.PackWritesMarkerAndMaskBytes
  intro src s n hrb hfb
  obtain rfl : n = packCount src s := by
    cases src with
    | reorder => exact (hrb rfl).2
    | canvas => exact (hfb rfl).1
  have hfits : src = .canvas → pixelCount s ≤ Config.fbDepth := fun h => (hfb h).1.symm.trans_le (hfb h).2
  refine ⟨_, congrArg Host.Outcome.next (packStage_ok (fun h => (hrb h).1) hfits), toNat_packedLength src s, fun hn => ?_,
    read_packed_mark _ _ _, fun g hg => ⟨_, read_packed_mask _ _ _ hg, isMaskByte_groupMask _ _ g⟩, fun i hi => ?_, rfl⟩
  · rw [done_pklen, toNat_packedLength, Config.pkCap_eq]
    exact Nat.add_le_add_left (ceilDiv_mono hn 7) 1
  · rw [done_pklen, toNat_packedLength] at hi
    exact read_packed_past _ _ _ hi

end Sys2Proof.Machine
end

section
/-! The CFU (40_checksum.md R110, R113, R114, R116, R117): the fold of a packet's bytes written out and after a change, and the two ends
of CFGCHECK told apart by RESULT. -/

namespace Sys2Proof.Machine

/-! ### The bytes of a vector in order -/

theorem toList_eq_map_finRange {n : Nat} (v : Vector Byte n) :
    v.toList = (List.finRange n).map fun i => v[i] := by
  apply List.ext_getElem <;> simp

/-- The fold written out byte by byte: for a given `n` the right side unfolds to `0xAA ^^^ v[0] ^^^ v[1] ^^^ ...`. -/
theorem sfold_toList {n : Nat} (v : Vector Byte n) :
    sfold v.toList = (List.finRange n).foldl (fun c i => c ^^^ v[i]) 0xAA := by
  rw [toList_eq_map_finRange, sfold, List.foldl_map]; rfl

theorem packet_eq_head_cons_tail (p : Vector Byte 13) : p.toList = p[0] :: p.toList.tail := by
  rw [toList_eq_map_finRange]; rfl

/-! ### What the fold says of a packet, and how it changes with it -/

theorem sfold_cons (b : Byte) (bytes : List Byte) : sfold (b :: bytes) = b ^^^ sfold bytes := by
  rw [sfold_eq, sfold_eq, ufold_cons, ← BitVec.xor_assoc, BitVec.xor_comm _ b, BitVec.xor_assoc]

theorem sfold_eq_zero_iff_ufold (bytes : List Byte) : sfold bytes = 0 ↔ ufold bytes = 0xAA := by
  rw [sfold_eq, eq_comm (a := ufold bytes)]
  exact BitVec.xor_eq_zero_iff

/-- A packet folds to 0 exactly when its byte 0 is the seeded fold of the rest (R114). -/
theorem sfold_packet_eq_zero_iff (p : Vector Byte 13) : sfold p.toList = 0 ↔ p[0] = sfold p.toList.tail := by
  rw [packet_eq_head_cons_tail, sfold_cons, List.tail_cons]
  exact BitVec.xor_eq_zero_iff

theorem sfold_configPacket (cfg : Vector Byte 12) : sfold (configPacket cfg).toList = 0 := by
  rw [configPacket_toList, sfold_cons]
  exact BitVec.xor_self

theorem sfold_perm {xs ys : List Byte} (h : xs.Perm ys) : sfold xs = sfold ys := by
  rw [sfold_eq, sfold_eq, ufold_perm h]

/-- The fold changes by the same difference as the byte (R117). -/
theorem sfold_set {n : Nat} (v : Vector Byte n) {i : Nat} (hi : i < n) (b : Byte) :
    sfold (v.set i b).toList = sfold v.toList ^^^ (v[i] ^^^ b) := by
  rw [Vector.toList_set, sfold_eq, sfold_eq, ufold_set _ _ _ (by simpa using hi), Vector.getElem_toList, BitVec.xor_assoc,
    BitVec.xor_comm b]

/-- The same difference in two bytes cancels in the fold (R117). -/
theorem sfold_set_set {n : Nat} (v : Vector Byte n) {i j : Nat} (hi : i < n) (hj : j < n) (hij : i ≠ j) (d : Byte) :
    sfold ((v.set i (v[i] ^^^ d)).set j (v[j] ^^^ d)).toList = sfold v.toList := by
  have hdiff (a : Byte) : a ^^^ (a ^^^ d) = d := by rw [← BitVec.xor_assoc, BitVec.xor_self, BitVec.zero_xor]
  rw [sfold_set _ hj, sfold_set _ hi, Vector.getElem_set_ne _ _ hij, hdiff, hdiff, BitVec.xor_assoc, BitVec.xor_self,
    BitVec.xor_zero]

/-! ### CFGCHECK accepts exactly the packets that fold to 0 (R113) -/

theorem execCfgcheck_result_eq_zero_iff {s t : State} (h : execCfgcheck s = .next t) :
    t.result = 0 ↔ sfold s.cpkt.toList = 0 := by
  by_cases hc : sfold s.cpkt.toList = 0
  · obtain rfl := Host.Outcome.next.inj ((execCfgcheck_ok hc).symm.trans h)
    exact iff_of_true rfl hc
  · obtain rfl := Host.Outcome.next.inj ((execCfgcheck_bad hc).symm.trans h)
    exact iff_of_false (by decide : errCode .chk ≠ 0) hc

/-! ### The statements -/

/-- Settles O17: the packet is `configPacket`, whose byte 0 is the seeded fold of the octets (`configPacket_zero`). -/
theorem cfgbuildBuildsTheConfigPacket : Obligations.CfgbuildBuildsTheConfigPacket := by
  unfold Obligations.CfgbuildBuildsTheConfigPacket
  intro s
  have hfold : (configPacket s.cfg)[0] = sfold s.cfg.toList := configPacket_zero s.cfg
  refine ⟨_, rfl, hfold.trans (sfold_toList s.cfg), configPacket_succ s.cfg, ?_⟩
  rw [done_cpkt, hfold]
  rfl

/-- Settles O18: `c` is the seeded fold (`sfold_toList`), and `execCfgcheck_ok` and `execCfgcheck_bad` are the two ends. -/
theorem cfgcheckFoldsThePacket : Obligations.CfgcheckFoldsThePacket := by
  unfold Obligations.CfgcheckFoldsThePacket
  intro s c hc
  obtain rfl : c = sfold s.cpkt.toList := hc.trans (sfold_toList s.cpkt).symm
  refine ⟨execCfgcheck_ok, fun hbad => (execCfgcheck_bad hbad).trans ?_⟩
  rw [BitVec.ofNat_toNat]
  rfl

/-- Settles O19: a built packet folds to 0 (`sfold_configPacket`), and folding to 0 is the test of byte 0
(`sfold_packet_eq_zero_iff`). -/
theorem builtPacketVerifies : Obligations.BuiltPacketVerifies := by
  unfold Obligations.BuiltPacketVerifies
  refine ⟨fun s t u hbuild hcheck => ?_, fun s u hcheck => ?_⟩
  · obtain rfl := Host.Outcome.next.inj hbuild
    obtain rfl := Host.Outcome.next.inj ((execCfgcheck_ok (sfold_configPacket s.cfg)).symm.trans hcheck)
    exact ⟨rfl, rfl, rfl⟩
  · exact (execCfgcheck_result_eq_zero_iff hcheck).trans (sfold_packet_eq_zero_iff s.cpkt)

/-- Settles O20: the seed moved to the other side (`sfold_eq_zero_iff_ufold`), or byte 0 (`sfold_packet_eq_zero_iff`). -/
theorem threeVerifyingTestsAgree : Obligations.ThreeVerifyingTestsAgree := by
  unfold Obligations.ThreeVerifyingTestsAgree
  intro p
  have hufold := sfold_eq_zero_iff_ufold p.toList
  exact ⟨hufold, hufold.symm.trans (sfold_packet_eq_zero_iff p)⟩

/-- Settles O21: one change moves the fold by its difference (`sfold_set`), two equal changes cancel (`sfold_set_set`), and the order
does not matter (`sfold_perm`). -/
theorem checksumDetectsOneChangedByte : Obligations.ChecksumDetectsOneChangedByte := by
  unfold Obligations.ChecksumDetectsOneChangedByte
  intro s u i j b d q hcheck hok
  have hzero : sfold s.cpkt.toList = 0 := (execCfgcheck_result_eq_zero_iff hcheck).1 hok
  refine ⟨fun hb => ?_, fun hij => ?_, fun hperm => ⟨_, execCfgcheck_ok ((sfold_perm hperm).trans hzero), rfl⟩⟩
  · have hfold : sfold (s.cpkt.set i b).toList = s.cpkt[i] ^^^ b := by
      rw [sfold_set, hzero]
      exact BitVec.zero_xor
    have hbad : sfold (s.cpkt.set i b).toList ≠ 0 := fun h => hb (BitVec.xor_eq_zero_iff.1 (hfold.symm.trans h)).symm
    refine ⟨_, execCfgcheck_bad hbad, rfl, ?_⟩
    rw [raise_einfo, hfold, BitVec.ofNat_toNat]
  · have hfold := sfold_set_set s.cpkt i.isLt j.isLt (Fin.val_ne_of_ne hij) d
    refine ⟨_, ?_, execCfgcheck_ok (hfold.trans hzero)⟩
    rfl

end Sys2Proof.Machine
end

section
/-! The GEU (41_pack_frame.md R130, R135, R140, R141): what a PACK that ended OK and a FRAME leave, and the mask bytes of regular
groups. -/

namespace Sys2Proof.Machine

/-! ### Mask bytes of regular groups (R135) -/

/-- The mask byte of a group whose on pixels are its first `k` has its low `k` bits set. -/
theorem IsMaskByte.eq_lowBits {n g k : Nat} {pixel : Nat → Byte} {b : Byte} (hb : IsMaskByte n pixel g b) (hk : k ≤ 7)
    (hon : ∀ j < 7, (7 * g + j < n ∧ pixel (7 * g + j) ≠ 0) ↔ j < k) : b = BitVec.ofNat 8 (2 ^ k - 1) := by
  obtain ⟨hbit7, hbits⟩ := hb
  refine BitVec.eq_of_getLsbD_eq fun j hj => ?_
  rw [BitVec.getLsbD_ofNat, Nat.testBit_two_pow_sub_one, decide_eq_true hj, Bool.true_and]
  rcases Nat.lt_or_ge j 7 with hlt | hge
  · exact Bool.eq_iff_iff.2 (((hbits j hlt).trans (hon j hlt)).trans decide_eq_true_iff.symm)
  · obtain rfl : j = 7 := by omega
    rw [hbit7, decide_eq_false (by omega)]

/-- With every pixel on, bit `j` of a group is on exactly when its pixel exists. -/
theorem IsMaskByte.eq_lowBits_of_allOn {n g k : Nat} {pixel : Nat → Byte} {b : Byte} (hb : IsMaskByte n pixel g b) (hk : k ≤ 7)
    (hon : ∀ j < n, pixel j ≠ 0) (hexists : ∀ j < 7, 7 * g + j < n ↔ j < k) : b = BitVec.ofNat 8 (2 ^ k - 1) :=
  hb.eq_lowBits hk fun j hj => (and_iff_left_of_imp (hon _)).trans (hexists j hj)

/-! ### PACK -/

/-- Of its three ends PACK ends OK in one only, so RESULT 0 alone says what PKF holds (R130, R133). -/
theorem exec_pack_ok {src : Src} {s t : State} (ht : exec (.pack src) s = .next t) (hok : t.result = 0) :
    t.pkv = true ∧ t.pklen.toNat = 1 + ceilDiv (packCount src s) 7 ∧ t.pkf.read 0 = some Config.im ∧
      ∀ g < ceilDiv (packCount src s) 7, ∃ b, t.pkf.read (1 + g) = some b ∧
        IsMaskByte (packCount src s) (packPixel src s) g b := by
  obtain rfl : packStage src s = t := Host.Outcome.next.inj ht
  rcases packStage_ends src s with ⟨-, -, hend⟩ | ⟨-, -, hend⟩ | ⟨-, -, hend⟩
  · rw [hend]
    exact ⟨rfl, toNat_packedLength src s, read_packed_mark _ _ _,
      fun g hg => ⟨_, read_packed_mask _ _ _ hg, isMaskByte_groupMask _ _ g⟩⟩
  · exact absurd ((congrArg State.result hend).symm.trans hok) (errCode_ne_zero .seq)
  · exact absurd ((congrArg State.result hend).symm.trans hok) (errCode_ne_zero .param)

/-- Settles O23: the two refusals of PACK (`packStage_noRb`, `packStage_tooLarge`). -/
theorem packRefusesABadSource : Obligations.PackRefusesABadSource := by
  unfold Obligations.PackRefusesABadSource
  exact fun s => ⟨fun h => ⟨_, congrArg Host.Outcome.next (packStage_noRb h), rfl⟩,
    fun h => ⟨_, congrArg Host.Outcome.next (packStage_tooLarge h), rfl⟩⟩

/-- Settles O24: each group is one whose on pixels are its first `k` (`IsMaskByte.eq_lowBits`): the given `k`, none, all seven, or the
`n % 7` pixels of a short last group. -/
theorem maskBytesOfRegularFrames : Obligations.MaskBytesOfRegularFrames := by
  unfold Obligations.MaskBytesOfRegularFrames
  rintro src s t n rfl ht hok
  obtain ⟨-, hlen, hmark, hmasks⟩ := exec_pack_ok ht hok
  generalize packCount src s = n at *
  have hcell {g k : Nat} (hg : g < ceilDiv n 7)
      (h : ∀ b, IsMaskByte n (packPixel src s) g b → b = BitVec.ofNat 8 (2 ^ k - 1)) :
      t.pkf.read (1 + g) = some (BitVec.ofNat 8 (2 ^ k - 1)) := by
    obtain ⟨b, hread, hb⟩ := hmasks g hg
    rw [hread, h b hb]
  refine ⟨hmark, hlen, fun g k hfull hk hon => ?_, fun hoff g hg => ?_, fun hon => ?_⟩
  · refine hcell (by unfold ceilDiv; omega) fun b hb => hb.eq_lowBits hk fun j hj => ?_
    exact (and_iff_right (by omega)).trans (hon j hj)
  · refine hcell (k := 0) hg fun b hb => hb.eq_lowBits (Nat.zero_le 7) fun j _ => ?_
    exact iff_of_false (fun h => h.2 (hoff _ h.1)) (Nat.not_lt_zero j)
  · have hfull : ∀ g < n / 7, t.pkf.read (1 + g) = some 0x7F := fun g hg =>
      hcell (k := 7) (by unfold ceilDiv; omega) fun b hb => hb.eq_lowBits_of_allOn (Nat.le_refl 7) hon fun j hj => by omega
    have hlast : n % 7 ≠ 0 → t.pkf.read (1 + n / 7) = some (BitVec.ofNat 8 (2 ^ (n % 7) - 1)) := fun hr =>
      hcell (by unfold ceilDiv; omega) fun b hb => hb.eq_lowBits_of_allOn (by omega) hon fun j hj => by omega
    refine ⟨hfull, hlast, ?_⟩
    rintro rfl
    exact ⟨BitVec.eq_of_toNat_eq hlen, hfull, hlast (by decide)⟩

/-! ### The cells of a WireFrame -/

theorem read_framed_mark (s : State) : (s.wfr.writeFrom 0 (Config.om :: packedBytes s)).read 0 = some Config.om :=
  Memory.read_writeFrom_lt s.wfr (Nat.succ_pos _)

/-- FRAME copies a cell of PKF that has a defined value, whatever it is (R140). -/
theorem read_framed_packed {s : State} {i : Nat} {b : Byte} (hi : i < s.pklen.toNat) (hb : s.pkf.read i = some b) :
    (s.wfr.writeFrom 0 (Config.om :: packedBytes s)).read (1 + i) = some b := by
  rw [Nat.add_comm, Memory.read_writeFrom_lt s.wfr (by simpa using hi)]
  simp [packedBytes, readPkf, hb]

theorem read_framed_past {s : State} {i : Nat} (hi : s.pklen.toNat + 1 ≤ i) :
    (s.wfr.writeFrom 0 (Config.om :: packedBytes s)).read i = s.wfr.read i :=
  Memory.read_writeFrom_ge s.wfr (by rwa [List.length_cons, length_packedBytes])

/-! ### FRAME -/

/-- Settles O26: the two ends of FRAME (`frameStage_ok`, `frameStage_noPkf`), and the cells of the WireFrame (`read_framed_mark`,
`read_framed_packed`, `read_framed_past`). -/
theorem frameAddsTheOuterMarker : Obligations.FrameAddsTheOuterMarker := by
  unfold Obligations.FrameAddsTheOuterMarker
  refine fun s => ⟨fun hpkv hlen => ?_, fun hpkv => ⟨_, congrArg Host.Outcome.next (frameStage_noPkf hpkv), rfl⟩⟩
  have hwflen : (BitVec.ofNat 32 (s.pklen.toNat + 1)).toNat = s.pklen.toNat + 1 := Nat.mod_eq_of_lt hlen
  refine ⟨_, congrArg Host.Outcome.next (frameStage_ok hpkv), hwflen, read_framed_mark s,
    fun i hi b hb => read_framed_packed hi hb, fun i hi => ?_, rfl⟩
  rw [done_wflen, hwflen] at hi
  exact read_framed_past hi

/-- Settles O27: what PACK left in PKF (`exec_pack_ok`), FRAME copies behind `OM` (`frameAddsTheOuterMarker`). -/
theorem packThenFrameLeavesAWireFrame : Obligations.PackThenFrameLeavesAWireFrame := by
  unfold Obligations.PackThenFrameLeavesAWireFrame
  rintro src s t u n rfl hpack hok hframe
  obtain ⟨hpkv, hpklen, hmark, hmasks⟩ := exec_pack_ok hpack hok
  have hcount : packCount src s < 2 ^ 32 := packCount_lt src s
  have hfits : t.pklen.toNat + 1 < 2 ^ 32 := by
    rw [hpklen]
    unfold ceilDiv
    omega
  obtain ⟨u', hu', hwflen, hom, hcopy, -, hrest⟩ := (frameAddsTheOuterMarker t).1 hpkv hfits
  obtain rfl : u' = u := Host.Outcome.next.inj (hu'.symm.trans hframe)
  refine ⟨by rw [hrest], by rw [hrest], hwflen, by omega, hom, hcopy 0 (by omega) _ hmark, fun g hg => ?_⟩
  obtain ⟨b, hread, hb⟩ := hmasks g hg
  refine ⟨b, ?_, hb⟩
  have hcell := hcopy (1 + g) (by omega) b hread
  rwa [← Nat.add_assoc] at hcell

end Sys2Proof.Machine
end

section
/-! E_ENC is never raised (41_pack_frame.md R132, R134): the result of each stage is not 1. -/

namespace Sys2Proof.Machine

theorem done_result_ne_one (s : State) : (done s).result ≠ 1 := by
  rw [done_result]
  decide

theorem raise_result_ne_one (e : ErrKind) (h : e ≠ .enc) (info : Word) (s : State) : (raise e info s).result ≠ 1 := by
  rw [raise_result]
  cases e with
  | enc => exact absurd rfl h
  | xport | layout | seq | param | cmd | chk => decide

theorem execCfgcheck_result_ne_one {s t : State} (ht : execCfgcheck s = .next t) : t.result ≠ 1 := by
  by_cases hc : sfold s.cpkt.toList = 0
  · obtain rfl := Host.Outcome.next.inj ((execCfgcheck_ok hc).symm.trans ht)
    exact done_result_ne_one _
  · obtain rfl := Host.Outcome.next.inj ((execCfgcheck_bad hc).symm.trans ht)
    exact raise_result_ne_one .chk nofun _ _

theorem mapStage_result_ne_one (s : State) : (mapStage s).result ≠ 1 := by
  rcases mapStage_ends s with ⟨-, hend⟩ | ⟨-, e, info, he, hend⟩
  · exact hend ▸ done_result_ne_one _
  · have henc : e ≠ .enc := by rintro rfl; rcases he with h | h <;> cases h
    exact hend ▸ raise_result_ne_one e henc _ _

theorem packStage_result_ne_one (src : Src) (s : State) : (packStage src s).result ≠ 1 := by
  rcases packStage_ends src s with ⟨-, -, hend⟩ | ⟨-, -, hend⟩ | ⟨-, -, hend⟩
  · exact hend ▸ done_result_ne_one _
  · exact hend ▸ raise_result_ne_one .seq nofun _ _
  · exact hend ▸ raise_result_ne_one .param nofun _ _

theorem frameStage_result_ne_one (s : State) : (frameStage s).result ≠ 1 := by
  rcases frameStage_ends s with ⟨-, hend⟩ | ⟨-, hend⟩
  · exact hend ▸ done_result_ne_one _
  · exact hend ▸ raise_result_ne_one .seq nofun _ _

/-- A reset that cuts a hand-over short leaves RESULT 0 (70_reset_and_hazards.md R230). -/
theorem splitStage_result_ne_one {s t : State} (ht : splitStage s = .next t) : t.result ≠ 1 := by
  rcases splitStage_ends s with ⟨-, hend⟩ | ⟨-, -, hend⟩ | ⟨-, -, hends⟩
  · exact Host.Outcome.next.inj (hend.symm.trans ht) ▸ raise_result_ne_one .seq nofun _ _
  · exact Host.Outcome.next.inj (hend.symm.trans ht) ▸ raise_result_ne_one .param nofun _ _
  · rw [ht] at hends
    cases hends with
    | sent => exact done_result_ne_one _
    | failed => exact raise_result_ne_one .xport nofun _ _
    | reset => exact (by decide : State.reset.result ≠ 1)

/-- Settles O25: no stage ends with E_ENC; PACK, the one that could, finds no byte with bit 7 set (`encodeGroups_ok`). -/
theorem encodingErrorNeverArises : Obligations.EncodingErrorNeverArises := by
  unfold Obligations.EncodingErrorNeverArises
  intro i s
  refine exec_of_stages (R := fun _ t => t.result ≠ 1) (Q := fun _ o => ∀ t, o = .next t → t.result ≠ 1)
    ?next ?andThen ?build ?check ?map ?pack ?frame ?split i s
  case next => rintro _ _ h _ ⟨⟩; exact h
  case andThen => exact fun _ _ _ _ _ hQ => hQ
  case build => exact fun s t ht => Host.Outcome.next.inj ht ▸ done_result_ne_one _
  case check => exact fun s t ht => execCfgcheck_result_ne_one ht
  case map => exact mapStage_result_ne_one
  case pack => exact packStage_result_ne_one
  case frame => exact frameStage_result_ne_one
  case split => exact fun s t ht => splitStage_result_ne_one ht

end Sys2Proof.Machine
end

section
/-! The PMU (42_panel_map.md R150, R152): the two ends of MAP, and the check that fails first. -/

namespace Sys2Proof.Machine

/-! ### The two ends of MAP -/

theorem exec_map_of_goodLayout {s : State} (h : GoodLayout s) :
    exec .map s = .next (done { s with
      rb := s.rb.writeFrom 0 (mapSamples s)
      rblen := BitVec.ofNat 32 (pixelCount s)
      rbv := true
      draws := s.draws + 1 }) :=
  congrArg Host.Outcome.next (mapStage_ok h)

/-- Settles O29: MAP ends OK on a good layout, and raises an error, whose code is not 0, on any other (`mapStage_ends`). -/
theorem mapAcceptsExactlyTheGoodLayouts : Obligations.MapAcceptsExactlyTheGoodLayouts := by
  unfold Obligations.MapAcceptsExactlyTheGoodLayouts
  intro s t ht
  obtain rfl : mapStage s = t := Host.Outcome.next.inj ht
  rcases mapStage_ends s with ⟨hgood, hend⟩ | ⟨hbad, e, info, -, hend⟩
  · exact iff_of_true (hend ▸ rfl) hgood
  · exact iff_of_false (hend ▸ errCode_ne_zero e) hbad

/-- Settles O31: a MAP that leaves a result other than 0 has raised an error (`mapStage_ends`), after `startMap` alone. -/
theorem failedMapClearsRbvAndLeavesAllButRbAndTheReport :
    Obligations.FailedMapClearsRbvAndLeavesAllButRbAndTheReport := by
  unfold Obligations.FailedMapClearsRbvAndLeavesAllButRbAndTheReport
  intro s t ht hbad
  obtain rfl : mapStage s = t := Host.Outcome.next.inj ht
  rcases mapStage_ends s with ⟨-, hend⟩ | ⟨-, e, info, -, hend⟩
  · exact absurd (congrArg State.result hend) hbad
  · rw [hend]
    rfl

/-! ### The first check that fails (R150, R207) -/

/-- What MAP reports is what its checks answer. -/
theorem reports_of_mapError {s t : State} {e : ErrKind} {info : Word} (ht : exec .map s = .next t)
    (h : mapError s = some (e, info)) : t.result = errCode e ∧ t.einfo = info := by
  obtain rfl : mapStage s = t := Host.Outcome.next.inj ht
  rw [mapStage_error h]
  exact ⟨rfl, rfl⟩

/-- The list of the origins cut at entry `i`. -/
theorem panelOrigins_split {s : State} {i : Nat} (hi : i < s.np.toNat) :
    panelOrigins s = (panelOrigins s).take i ++ originOf (readLut s i) :: (panelOrigins s).drop (i + 1) := by
  have hlen : i < (panelOrigins s).length := by rwa [length_panelOrigins]
  rw [← getElem_panelOrigins s i hlen, ← List.drop_eq_getElem_cons, List.take_append_drop]

theorem mem_take_panelOrigins {s : State} {i : Nat} (hi : i < s.np.toNat) (o : Nat × Nat) :
    o ∈ (panelOrigins s).take i ↔ ∃ j < i, originOf (readLut s j) = o := by
  rw [panelOrigins, ← List.map_take, List.take_range, Nat.min_eq_left hi.le]
  simp

/-- The entries below `i` pass the check when each is in the grid and repeats none before it. -/
theorem originError_take_eq_none {s : State} {gx gy i : Nat} (hi : i < s.np.toNat)
    (hgrid : ∀ j < i, (originOf (readLut s j)).1 < gx ∧ (originOf (readLut s j)).2 < gy)
    (hnew : ∀ j < i, ∀ k < j, originOf (readLut s k) ≠ originOf (readLut s j)) :
    originError gx gy [] 0 ((panelOrigins s).take i) = none := by
  refine (originError_eq_none _ _ _).2 ⟨fun o ho => ?_, ?_, fun _ _ => List.not_mem_nil⟩
  · obtain ⟨j, hj, rfl⟩ := (mem_take_panelOrigins hi o).1 ho
    exact hgrid j hj
  · rw [List.Nodup, List.pairwise_iff_getElem]
    intro k j hk hj hkj
    simp only [List.length_take, length_panelOrigins] at hk hj
    simpa using hnew j (by omega) k hkj

/-- An entry outside the grid is reported when the entries before it pass (cause 4). -/
theorem originError_of_outside {s : State} {gx gy i : Nat} (hi : i < s.np.toNat)
    (hpre : originError gx gy [] 0 ((panelOrigins s).take i) = none)
    (hout : gx ≤ (originOf (readLut s i)).1 ∨ gy ≤ (originOf (readLut s i)).2) :
    originError gx gy [] 0 (panelOrigins s) = some (layoutInfo 4 i) := by
  rw [panelOrigins_split hi, originError_range _ _ _ hpre hout, List.length_take, length_panelOrigins, Nat.min_eq_left hi.le]

/-- An entry that repeats an earlier one is reported when the entries before it pass (cause 5). -/
theorem originError_of_repeat {s : State} {gx gy i j : Nat} (hi : i < s.np.toNat)
    (hpre : originError gx gy [] 0 ((panelOrigins s).take i) = none)
    (hgrid : (originOf (readLut s i)).1 < gx ∧ (originOf (readLut s i)).2 < gy)
    (hj : j < i) (heq : originOf (readLut s j) = originOf (readLut s i)) :
    originError gx gy [] 0 (panelOrigins s) = some (layoutInfo 5 i) := by
  rw [panelOrigins_split hi, originError_repeat _ _ _ hpre hgrid ((mem_take_panelOrigins hi _).2 ⟨j, hj, heq⟩),
    List.length_take, length_panelOrigins, Nat.min_eq_left hi.le]

/-- Settles O30: the tests of `mapError` stand in the order of the statement, and its test of the LUT entries stops at the first
that does not pass (`originError_of_outside`, `originError_of_repeat`). -/
theorem mapReportsTheFirstFailingCheck : Obligations.MapReportsTheFirstFailingCheck := by
  unfold Obligations.MapReportsTheFirstFailingCheck
  intro s t gx gy passes ht hgx hgy hpasses
  obtain rfl : gx = gridColumns s := hgx
  obtain rfl : gy = gridRows s := hgy
  have hparam {info : Word} (h : mapError s = some (.param, info)) : t.result = 5 ∧ t.einfo = info := reports_of_mapError ht h
  have hlayout {info : Word} (h : mapError s = some (.layout, info)) : t.result = 3 ∧ t.einfo = info := reports_of_mapError ht h
  refine ⟨fun hfb => hparam (if_pos hfb), fun hfb => ?_⟩
  replace hfb : ¬ Config.fbDepth < pixelCount s := Nat.not_lt.2 hfb
  refine ⟨fun hlut => hparam (by rw [mapError, if_neg hfb, if_pos hlut]), fun hlut => ?_⟩
  replace hlut : ¬ Config.lutDepth < s.np.toNat := Nat.not_lt.2 hlut
  refine ⟨fun hzero => hlayout (info := layoutInfo 1 0) (by rw [mapError, if_neg hfb, if_neg hlut, if_pos hzero]),
    fun hpw hph => ?_⟩
  have hpanel : ¬ (s.pw.toNat = 0 ∨ s.ph.toNat = 0) := not_or.2 ⟨hpw, hph⟩
  refine ⟨fun hrem => hlayout (info := layoutInfo 2 0)
    (by rw [mapError, if_neg hfb, if_neg hlut, if_neg hpanel, if_pos hrem]), fun hw hh => ?_⟩
  have hwhole : ¬ (s.w.toNat % s.pw.toNat ≠ 0 ∨ s.h.toNat % s.ph.toNat ≠ 0) := not_or.2 ⟨not_not.2 hw, not_not.2 hh⟩
  refine ⟨fun hnp => hlayout (info := layoutInfo 3 0)
    (by rw [mapError, if_neg hfb, if_neg hlut, if_neg hpanel, if_neg hwhole, if_pos hnp]), fun hnp i hi hbefore => ?_⟩
  have hentry {info : Word} (h : originError (gridColumns s) (gridRows s) [] 0 (panelOrigins s) = some info) :
      t.result = 3 ∧ t.einfo = info := hlayout (by
    rw [mapError, if_neg hfb, if_neg hlut, if_neg hpanel, if_neg hwhole, if_neg (not_not.2 hnp), h, Option.map_some])
  have hpre := originError_take_eq_none hi (fun j hj => ((hpasses j).1 (hbefore j hj)).1)
    fun j hj => ((hpasses j).1 (hbefore j hj)).2
  refine ⟨fun hout => hentry (originError_of_outside hi hpre hout), fun hx hy hfail => ?_⟩
  obtain ⟨j, hj, heq⟩ : ∃ j < i, originOf (readLut s j) = originOf (readLut s i) := by
    by_contra hnew
    exact hfail ((hpasses i).2 ⟨⟨hx, hy⟩, fun j hj heq => hnew ⟨j, hj, heq⟩⟩)
  exact hentry (originError_of_repeat hi hpre ⟨hx, hy⟩ hj heq)

end Sys2Proof.Machine
end

section
/-! The PMU (42_panel_map.md R153, R154): which canvas pixel goes to which cell of RB. -/

namespace Sys2Proof.Machine

/-! ### The coordinates of a position -/

/-- Destination positions and canvas indices are numbers with two digits: panel and rest, row and column. -/
theorem digits_lt {a n d b : Nat} (ha : a < n) (hd : d < b) : a * b + d < n * b :=
  calc a * b + d < (a + 1) * b := by rw [Nat.succ_mul]; omega
    _ ≤ n * b := Nat.mul_le_mul_right b ha

theorem digits_unique {a d a' d' b : Nat} (hd : d < b) (hd' : d' < b) (h : a * b + d = a' * b + d') : a = a' ∧ d = d' := by
  have hrem : d = d' := by
    rw [← Nat.mul_add_mod_of_lt hd (a := a), h, Nat.mul_add_mod_of_lt hd']
  subst hrem
  exact ⟨Nat.eq_of_mul_eq_mul_right (Nat.zero_lt_of_lt hd) (Nat.add_right_cancel h), rfl⟩

theorem mapSource_eq_canvasIndex (s : State) (j : Nat) :
    mapSource s j = canvasIndex s (originOf (readLut s (j / (s.pw.toNat * s.ph.toNat))))
      (j % (s.pw.toNat * s.ph.toNat) / s.pw.toNat) (j % (s.pw.toNat * s.ph.toNat) % s.pw.toNat) := rfl

/-! ### The cells of RB (R153) -/

/-- RBLEN does not wrap. -/
theorem toNat_pixelCount (s : State) : (BitVec.ofNat 32 (pixelCount s)).toNat = pixelCount s := Nat.mod_eq_of_lt (pixelCount_lt s)

theorem read_mapped {s : State} {i r c : Nat} (hi : i < s.np.toNat) (hr : r < s.ph.toNat) (hc : c < s.pw.toNat) :
    (s.rb.writeFrom 0 (mapSamples s)).read (i * (s.pw.toNat * s.ph.toNat) + r * s.pw.toNat + c) =
      some (readFb s (canvasIndex s (originOf (readLut s i)) r c)) := by
  rw [Nat.mul_comm s.pw.toNat s.ph.toNat, Nat.add_assoc, Memory.read_writeFrom, if_pos (Nat.zero_le _), Nat.sub_zero,
    getElem?_mapSamples s hi hr hc, Option.some_or]

section
variable {s : State} (h : GoodLayout s)
include h

/-! ### The source positions -/

theorem GoodLayout.width : s.w.toNat / s.pw.toNat * s.pw.toNat = s.w.toNat :=
  Nat.div_mul_cancel (Nat.dvd_of_mod_eq_zero h.wholePanels.1)

theorem GoodLayout.height : s.h.toNat / s.ph.toNat * s.ph.toNat = s.h.toNat :=
  Nat.div_mul_cancel (Nat.dvd_of_mod_eq_zero h.wholePanels.2)

theorem GoodLayout.column_lt {i c : Nat} (hi : i < s.np.toNat) (hc : c < s.pw.toNat) :
    (originOf (readLut s i)).1 * s.pw.toNat + c < s.w.toNat :=
  (digits_lt (h.inGrid i hi).1 hc).trans_eq h.width

theorem GoodLayout.row_lt {i r : Nat} (hi : i < s.np.toNat) (hr : r < s.ph.toNat) :
    (originOf (readLut s i)).2 * s.ph.toNat + r < s.h.toNat :=
  (digits_lt (h.inGrid i hi).2 hr).trans_eq h.height

/-- The source of a panel's pixel is in the canvas. -/
theorem GoodLayout.canvasIndex_lt {i r c : Nat} (hi : i < s.np.toNat) (hr : r < s.ph.toNat) (hc : c < s.pw.toNat) :
    canvasIndex s (originOf (readLut s i)) r c < pixelCount s :=
  (digits_lt (h.row_lt hi hr) (h.column_lt hi hc)).trans_eq (Nat.mul_comm _ _)

/-- Two panels' pixels with one source are the same pixel of the same panel: no two panels share an origin (R152, condition 5). -/
theorem GoodLayout.canvasIndex_inj {i r c i' r' c' : Nat} (hi : i < s.np.toNat) (hr : r < s.ph.toNat) (hc : c < s.pw.toNat)
    (hi' : i' < s.np.toNat) (hr' : r' < s.ph.toNat) (hc' : c' < s.pw.toNat)
    (heq : canvasIndex s (originOf (readLut s i)) r c = canvasIndex s (originOf (readLut s i')) r' c') :
    i = i' ∧ r = r' ∧ c = c' := by
  obtain ⟨hrow, hcolumn⟩ := digits_unique (h.column_lt hi hc) (h.column_lt hi' hc') heq
  obtain ⟨hy, hrr⟩ := digits_unique hr hr' hrow
  obtain ⟨hx, hcc⟩ := digits_unique hc hc' hcolumn
  have horigin : originOf (readLut s i) = originOf (readLut s i') := Prod.ext hx hy
  refine ⟨?_, hrr, hcc⟩
  rcases Nat.lt_trichotomy i i' with hlt | rfl | hlt
  · exact absurd horigin (h.distinct i i' hlt hi')
  · rfl
  · exact absurd horigin.symm (h.distinct i' i hlt hi)

/-! ### The destination positions -/

theorem GoodLayout.destinations_fill : s.np.toNat * (s.pw.toNat * s.ph.toNat) = pixelCount s := by
  rw [Nat.mul_comm s.pw.toNat, h.samples_fill]

theorem GoodLayout.destination_lt {i r c : Nat} (hi : i < s.np.toNat) (hr : r < s.ph.toNat) (hc : c < s.pw.toNat) :
    i * (s.pw.toNat * s.ph.toNat) + r * s.pw.toNat + c < pixelCount s := by
  rw [Nat.add_assoc, ← h.destinations_fill]
  exact digits_lt hi ((digits_lt hr hc).trans_eq (Nat.mul_comm _ _))

/-- The panel, the row and the column of a destination position are those of a panel's pixel. -/
theorem GoodLayout.coordinates_lt {j : Nat} (hj : j < pixelCount s) :
    j / (s.pw.toNat * s.ph.toNat) < s.np.toNat ∧ j % (s.pw.toNat * s.ph.toNat) / s.pw.toNat < s.ph.toNat ∧
      j % (s.pw.toNat * s.ph.toNat) % s.pw.toNat < s.pw.toNat := by
  obtain ⟨hpw, hph⟩ := h.panelNonzero
  refine ⟨?_, ?_, Nat.mod_lt _ hpw⟩
  · rw [Nat.div_lt_iff_lt_mul (Nat.mul_pos hpw hph), h.destinations_fill]
    exact hj
  · rw [Nat.div_lt_iff_lt_mul hpw, Nat.mul_comm s.ph.toNat]
    exact Nat.mod_lt _ (Nat.mul_pos hpw hph)

theorem GoodLayout.mapSource_lt {j : Nat} (hj : j < pixelCount s) : mapSource s j < pixelCount s := by
  obtain ⟨hi, hr, hc⟩ := h.coordinates_lt hj
  exact h.canvasIndex_lt hi hr hc

theorem GoodLayout.mapSource_inj {j k : Nat} (hj : j < pixelCount s) (hk : k < pixelCount s)
    (heq : mapSource s j = mapSource s k) : j = k := by
  obtain ⟨hi, hr, hc⟩ := h.coordinates_lt hj
  obtain ⟨hi', hr', hc'⟩ := h.coordinates_lt hk
  obtain ⟨hpanel, hrow, hcolumn⟩ := h.canvasIndex_inj hi hr hc hi' hr' hc' heq
  have hrest : j % (s.pw.toNat * s.ph.toNat) = k % (s.pw.toNat * s.ph.toNat) := Nat.ext_div_mod hrow hcolumn
  exact Nat.ext_div_mod hpanel hrest

/-- A one-to-one function on finitely many positions is onto as many. -/
theorem GoodLayout.mapSource_surj {p : Nat} (hp : p < pixelCount s) : ∃ j < pixelCount s, mapSource s j = p := by
  have honto : Set.SurjOn (mapSource s) (Finset.range (pixelCount s)) (Finset.range (pixelCount s)) :=
    Finset.surjOn_of_injOn_of_card_le (mapSource s)
      (fun j hj => by simpa using h.mapSource_lt (by simpa using hj))
      (fun j hj k hk => h.mapSource_inj (by simpa using hj) (by simpa using hk)) le_rfl
  simpa using honto (by simpa using hp)

/-! ### RB on a good layout -/

theorem GoodLayout.length_samples : (mapSamples s).length = pixelCount s := (length_mapSamples s).trans h.samples_fill

theorem GoodLayout.read_mapped_position {j : Nat} (hj : j < pixelCount s) :
    (s.rb.writeFrom 0 (mapSamples s)).read j = some (readFb s (mapSource s j)) := by
  obtain ⟨hi, hr, hc⟩ := h.coordinates_lt hj
  have hread := read_mapped hi hr hc
  rwa [Nat.add_assoc, Nat.div_add_mod', Nat.div_add_mod'] at hread

theorem GoodLayout.read_mapped_past {j : Nat} (hj : pixelCount s ≤ j) :
    (s.rb.writeFrom 0 (mapSamples s)).read j = s.rb.read j :=
  Memory.read_writeFrom_ge s.rb (by rwa [h.length_samples])

end

/-- Settles O28: the cells of RB are those of `read_mapped`, and of RB before past them. -/
theorem mapCopiesPanelsInLutOrder : Obligations.MapCopiesPanelsInLutOrder := by
  unfold Obligations.MapCopiesPanelsInLutOrder
  intro s h
  refine ⟨_, exec_map_of_goodLayout h, toNat_pixelCount s, ?_, fun j hj => ?_, rfl⟩
  · rintro i r c dst from' hi hr hc rfl rfl
    exact ⟨h.destination_lt hi hr hc, h.canvasIndex_lt hi hr hc, read_mapped hi hr hc⟩
  · rw [done_rblen, toNat_pixelCount] at hj
    exact h.read_mapped_past hj

/-- Settles O32: the source is in the canvas, and is one-to-one on the positions (`GoodLayout.mapSource_inj`), hence onto. -/
theorem mapIsABijection : Obligations.MapIsABijection := by
  unfold Obligations.MapIsABijection
  intro s h
  refine ⟨fun j hj => h.mapSource_lt hj, fun p hp => ?_, _, exec_map_of_goodLayout h, toNat_pixelCount s,
    fun j hj => h.read_mapped_position hj⟩
  obtain ⟨j, hj, rfl⟩ := h.mapSource_surj hp
  exact ⟨j, hj, rfl, fun k hk heq => h.mapSource_inj hk hj heq⟩

end Sys2Proof.Machine
end

section
/-! The PMU (42_panel_map.md R155): the layouts that leave every pixel where it is. -/

namespace Sys2Proof.Machine

/-- When the panels are the bands of the canvas from top to bottom, each position is its own source. -/
theorem GoodLayout.mapSource_of_bands {s : State} (h : GoodLayout s) (hcolumns : s.w.toNat / s.pw.toNat = 1)
    (hbands : ∀ i < s.np.toNat, originOf (readLut s i) = (0, i)) {j : Nat} (hj : j < pixelCount s) : mapSource s j = j := by
  have hwidth : s.w.toNat = s.pw.toNat := by rw [← h.width, hcolumns, Nat.one_mul]
  rw [mapSource_eq_canvasIndex, hbands _ (h.coordinates_lt hj).1, canvasIndex, hwidth]
  generalize hk : j % (s.pw.toNat * s.ph.toNat) = k
  generalize hi : j / (s.pw.toNat * s.ph.toNat) = i
  calc (i * s.ph.toNat + k / s.pw.toNat) * s.pw.toNat + (0 * s.pw.toNat + k % s.pw.toNat)
      = i * (s.pw.toNat * s.ph.toNat) + (k / s.pw.toNat * s.pw.toNat + k % s.pw.toNat) := by ring
    _ = i * (s.pw.toNat * s.ph.toNat) + k := by rw [Nat.div_add_mod']
    _ = j := by rw [← hi, ← hk, Nat.div_add_mod']

/-- One panel is the whole canvas. -/
theorem GoodLayout.grid_of_one_panel {s : State} (h : GoodLayout s) (hnp : s.np.toNat = 1) :
    s.w.toNat / s.pw.toNat = 1 ∧ s.h.toNat / s.ph.toNat = 1 := by
  have hgrid := h.panelCount.symm.trans hnp
  exact ⟨Nat.eq_one_of_mul_eq_one_right hgrid, Nat.eq_one_of_mul_eq_one_left hgrid⟩

theorem GoodLayout.origin_of_one_panel {s : State} (h : GoodLayout s) (hnp : s.np.toNat = 1) :
    originOf (readLut s 0) = (0, 0) := by
  obtain ⟨hx, hy⟩ := h.inGrid 0 (by omega)
  obtain ⟨hcolumns, hrows⟩ := h.grid_of_one_panel hnp
  rw [hcolumns] at hx
  rw [hrows] at hy
  exact Prod.ext (by simpa using hx) (by simpa using hy)

/-- The mask bytes depend on the pixels that exist only. -/
theorem maskBytes_congr {n : Nat} {p q : Nat → Byte} (hpq : ∀ j < n, p j = q j) : maskBytes n p = maskBytes n q := by
  refine List.map_congr_left fun g _ => BitVec.eq_of_getLsbD_eq fun k _ => ?_
  rw [groupMask_bit, groupMask_bit, decide_eq_decide]
  exact and_congr_right fun _ => and_congr_right fun hlt => by rw [hpq _ hlt]

/-- PACK from RB writes what PACK from the canvas writes, when RB holds the canvas; the two start from one PKF. -/
theorem exec_pack_reorder_eq_canvas {s t u v : State} (hu : exec (.pack .reorder) t = .next u)
    (hv : exec (.pack .canvas) s = .next v) (hrbv : t.rbv = true) (hlen : t.rblen.toNat = pixelCount s)
    (hsame : ∀ j < pixelCount s, t.rb.read j = some (readFb s j)) (hpkf : t.pkf = s.pkf)
    (hfits : pixelCount s ≤ Config.fbDepth) :
    u.pklen = v.pklen ∧ u.pkf = v.pkf := by
  obtain rfl : packStage .reorder t = u := Host.Outcome.next.inj hu
  obtain rfl : packStage .canvas s = v := Host.Outcome.next.inj hv
  have hcount : packCount .reorder t = packCount .canvas s := hlen
  have hmasks : maskBytes (packCount .canvas s) (packPixel .reorder t) = maskBytes (packCount .canvas s) (packPixel .canvas s) :=
    maskBytes_congr fun j hj => by simp only [packPixel, readRb, hsame j hj, Option.getD_some]
  rw [packStage_ok (src := .reorder) (fun _ => hrbv) nofun, packStage_ok (src := .canvas) nofun fun _ => hfits]
  simp only [done_pklen, done_pkf, hcount, hmasks, hpkf, and_self]

/-- Settles O33: one panel is the one band of its canvas, bands leave every pixel where it is (`GoodLayout.mapSource_of_bands`), and
PACK then reads the same pixels from either source (`exec_pack_reorder_eq_canvas`). -/
theorem onePanelMapIsTheIdentity : Obligations.OnePanelMapIsTheIdentity := by
  unfold Obligations.OnePanelMapIsTheIdentity
  intro s t h ht
  obtain rfl := Host.Outcome.next.inj ((exec_map_of_goodLayout h).symm.trans ht)
  have hsame (hcolumns : s.w.toNat / s.pw.toNat = 1) (hbands : ∀ i < s.np.toNat, originOf (readLut s i) = (0, i)) :
      ∀ j < pixelCount s, (s.rb.writeFrom 0 (mapSamples s)).read j = some (readFb s j) := fun j hj => by
    rw [h.read_mapped_position hj, h.mapSource_of_bands hcolumns hbands hj]
  refine ⟨fun hnp => ?_, hsame⟩
  obtain ⟨hcolumns, hrows⟩ := h.grid_of_one_panel hnp
  have horigin := h.origin_of_one_panel hnp
  have hone := hsame hcolumns fun i hi => by
    obtain rfl : i = 0 := by omega
    exact horigin
  refine ⟨BitVec.eq_of_toNat_eq ?_, BitVec.eq_of_toNat_eq ?_, horigin, hone, fun u v hu hv => ?_⟩
  · rw [← h.width, hcolumns, Nat.one_mul]
  · rw [← h.height, hrows, Nat.one_mul]
  · obtain ⟨hpklen, hpkf⟩ := exec_pack_reorder_eq_canvas hu hv rfl (toNat_pixelCount s) hone rfl h.canvasFits
    exact ⟨hpklen, fun i _ => by rw [hpkf]⟩

end Sys2Proof.Machine
end

section
/-! SPLIT (43_split.md R170, R171, R172, R173): its checks, its emission loop when the sink accepts every chunk or refuses one, and the
pacing of its records. -/

namespace Sys2Proof.Machine

/-! ### The checks -/

theorem splitStage_noWfr {s : State} (h : s.wfv = false) : splitStage s = .next (raise .seq 2 s) := if_pos h

theorem splitStage_noMaxchunk {s : State} (h : s.wfv = true) (hm : s.maxchunk.toNat = 0) :
    splitStage s = .next (raise .param 3 s) := by
  simp only [splitStage, h, hm, Bool.true_eq_false, if_true, if_false]

/-- Past the checks SPLIT is its emission loop over all chunks. -/
theorem splitStage_loopEnds {s : State} (h : s.wfv = true) (hm : 1 ≤ s.maxchunk.toNat) :
    LoopEnds (wireBytes s) s.maxchunk.toNat (ceilDiv s.wflen.toNat s.maxchunk.toNat)
      (ceilDiv s.wflen.toNat s.maxchunk.toNat) (consumeWfr s) (splitStage s) := by
  rcases splitStage_ends s with ⟨hwfv, -⟩ | ⟨-, hzero, -⟩ | ⟨-, -, hends⟩
  · exact absurd (h.symm.trans hwfv) nofun
  · omega
  · exact hends

/-- Settles O36: the two checks in turn (`splitStage_noWfr`, `splitStage_noMaxchunk`), each of which only reports. -/
theorem splitChecksBeforeItSends : Obligations.SplitChecksBeforeItSends := by
  unfold Obligations.SplitChecksBeforeItSends
  exact fun s => ⟨fun h => splitStage_noWfr h, fun h hm => splitStage_noMaxchunk h (congrArg BitVec.toNat hm)⟩

/-! ### What a scripted answer says of the loop -/

theorem SinkEvent.isAnswer_answers_iff {a b : Answer} {lag took : Nat} : (SinkEvent.answers a lag took).IsAnswer b ↔ b = a := by
  constructor
  · rintro ⟨lag', took', h | h⟩
    · exact (SinkEvent.answers.inj h).1.symm
    · cases h
  · rintro rfl
    exact ⟨lag, took, .inl rfl⟩

section
variable {wire : List Byte} {m n left : Nat} {s : State} {out : Host.Outcome State Fault Refusal}

/-- A record's answer is the scripted one. -/
theorem Records.answer_eq {i k lag took : Nat} {sink : List SinkEvent} {recs : List TxRecord} {a : Answer}
    (h : Records wire m n i sink recs) (hk : k < recs.length) (he : sink[k]? = some (.answers a lag took)) :
    recs[k].answer = a :=
  SinkEvent.isAnswer_answers_iff.1 (h.answered k hk _ he)

/-- A loop whose chunks are all accepted hands them all over. -/
theorem LoopEnds.sent_of_accepts (h : LoopEnds wire m n left s out) (haccepts : SinkAccepts left s) :
    ∃ recs t, out = .next (done t) ∧ recs.length = left ∧ Records wire m n (n - left) s.sink recs ∧
      (∀ r ∈ recs, r.answer = .ok) ∧ Sent s t recs ∧ t.nchunk = if left = 0 then s.nchunk else BitVec.ofNat 32 n := by
  cases h with
  | sent recs t len recsOk allOk _ _ frame count _ => exact ⟨recs, t, rfl, len, recsOk, allOk, frame, count⟩
  | failed f recs t hf len recsOk answers =>
    obtain ⟨lag, took, he⟩ := haccepts f hf
    have hfail := answers f (by omega)
    rw [if_pos rfl, recsOk.answer_eq _ he] at hfail
    cases hfail
  | hangs f hf _ why =>
    obtain ⟨lag, took, he⟩ := haccepts f hf
    obtain hsilent | ⟨a, lag', took', hstalls, -⟩ := why
    · cases he.symm.trans hsilent
    · cases he.symm.trans hstalls
  | reset f hf _ _ u log _ _ _ event =>
    obtain ⟨lag, took, he⟩ := haccepts f hf
    obtain ⟨lag', took', seen, hreset⟩ := event
    cases he.symm.trans hreset

/-- A loop whose chunk `f` is the first one refused stops there (R173). -/
theorem LoopEnds.failed_of_refuses {f lag took : Nat} (h : LoopEnds wire m n left s out) (hf : f < left)
    (haccepts : SinkAccepts f s) (hrefused : s.sink[f]? = some (.answers .fail lag took)) :
    ∃ recs t, out = .next (raise .xport (BitVec.ofNat 32 (n - left + f)) t) ∧ recs.length = f + 1 ∧
      Records wire m n (n - left) s.sink recs ∧
      (∀ k (hk : k < recs.length), recs[k].answer = if k = f then .fail else .ok) ∧
      Paced s.paceGap.toNat s.paceFrame.toNat (max s.now s.txReadyAt) t.now recs ∧ Sent s t recs ∧
      t.nchunk = if f = 0 then s.nchunk else BitVec.ofNat 32 (n - left + f) := by
  have hscript : ∀ k ≤ f, ∃ a lag' took', s.sink[k]? = some (.answers a lag' took') := fun k hk => by
    rcases Nat.lt_or_eq_of_le hk with hlt | rfl
    · exact ⟨.ok, haccepts k hlt⟩
    · exact ⟨.fail, lag, took, hrefused⟩
  have hnotOk : ∀ g, (∀ k < g, ∀ e, s.sink[k]? = some e → e.IsAnswer .ok) → g ≤ f := fun g hbefore => by
    by_contra hlt
    exact absurd (SinkEvent.isAnswer_answers_iff.1 (hbefore f (by omega) _ hrefused)) nofun
  cases h with
  | sent recs t len recsOk allOk =>
    have hok := allOk _ (List.getElem_mem (n := f) (by omega))
    rw [recsOk.answer_eq _ hrefused] at hok
    cases hok
  | failed g recs t hg len recsOk answers paced _ frame count _ =>
    rcases Nat.lt_trichotomy g f with hlt | rfl | hlt
    · obtain ⟨lag', took', he⟩ := haccepts g hlt
      have hfail := answers g (by omega)
      rw [if_pos rfl, recsOk.answer_eq _ he] at hfail
      cases hfail
    · exact ⟨recs, t, rfl, len, recsOk, answers, paced, frame, count⟩
    · have hok := answers f (by omega)
      rw [if_neg (by omega), recsOk.answer_eq _ hrefused] at hok
      cases hok
  | hangs g _ before why =>
    obtain ⟨a, lag', took', he⟩ := hscript g (hnotOk g before)
    obtain hsilent | ⟨b, lag'', took'', hstalls, -⟩ := why
    · cases he.symm.trans hsilent
    · cases he.symm.trans hstalls
  | reset g _ before _ u log _ _ _ event =>
    obtain ⟨a, lag', took', he⟩ := hscript g (hnotOk g before)
    obtain ⟨lag'', took'', seen, hreset⟩ := event
    cases he.symm.trans hreset

end

/-! ### The chunks' lengths and the count (R171) -/

/-- All chunks but the last have `m` bytes, the last has the rest, which is not empty. -/
theorem length_chunkAt_of_lt {wire : List Byte} {m n k : Nat} (hm : 1 ≤ m) (hn : n = ceilDiv wire.length m) (hk : k < n) :
    1 ≤ (chunkAt wire m k).length ∧
      (chunkAt wire m k).length = if k + 1 < n then m else wire.length - (n - 1) * m := by
  have hcover : wire.length ≤ n * m := hn ▸ le_ceilDiv_mul wire.length hm
  have hleast : n * m < wire.length + m := hn ▸ ceilDiv_mul_lt wire.length hm
  obtain ⟨last, rfl⟩ : ∃ last, n = last + 1 := Nat.exists_eq_succ_of_ne_zero (by omega)
  have hsucc : (last + 1) * m = last * m + m := Nat.succ_mul last m
  have hup : k * m ≤ last * m := Nat.mul_le_mul_right m (by omega)
  rw [length_chunkAt, Nat.add_sub_cancel]
  refine ⟨by omega, ?_⟩
  split_ifs with hlt
  · have hnext : (k + 1) * m ≤ last * m := Nat.mul_le_mul_right m (by omega)
    have hnextSucc : (k + 1) * m = k * m + m := Nat.succ_mul k m
    omega
  · obtain rfl : k = last := by omega
    omega

/-- There are no more chunks than bytes, so NCHUNK does not wrap. -/
theorem toNat_chunkIndex {s : State} {m k : Nat} (hm : 1 ≤ m) (hk : k ≤ ceilDiv s.wflen.toNat m) :
    (BitVec.ofNat 32 k).toNat = k :=
  Nat.mod_eq_of_lt ((hk.trans (ceilDiv_le _ hm)).trans_lt s.wflen.isLt)

/-- Settles O34: with every chunk accepted the loop ends at its end (`LoopEnds.sent_of_accepts`); the records are the chunks in
order, which laid end to end are the WireFrame (`Records.flatMap_bytes`). -/
theorem splitHandsOverTheWholeFrame : Obligations.SplitHandsOverTheWholeFrame := by
  unfold Obligations.SplitHandsOverTheWholeFrame
  rintro s m l n hwfv rfl hm rfl rfl haccepts
  obtain ⟨recs, t, hend, hlen, hrecs, hok, hsent, hcount⟩ := (splitStage_loopEnds hwfv hm).sent_of_accepts haccepts
  rw [Nat.sub_self] at hrecs
  refine ⟨done t, recs, hend, ?_, hlen, fun hl => ceilDiv_pos hl hm, ?_, fun k hk => ?_, ?_⟩
  · rw [done_nchunk, hcount]
    split_ifs with hzero
    · exact hzero.symm
    · exact toNat_chunkIndex hm le_rfl
  · rw [hrecs.flatMap_bytes, hlen]
    exact List.take_of_length_le ((length_wireBytes s).trans_le (le_ceilDiv_mul _ hm))
  · obtain ⟨hbytes, hfirst, hlast⟩ := hrecs.chunk k hk
    obtain ⟨hpos, hlength⟩ := length_chunkAt_of_lt (wire := wireBytes s) hm (by rw [length_wireBytes]) (hlen ▸ hk)
    rw [length_wireBytes] at hlength
    rw [Nat.zero_add] at hbytes hfirst hlast
    rw [hbytes]
    refine ⟨hpos, ?_, hlength, hfirst, hlast, hok _ (List.getElem_mem hk)⟩
    rw [length_chunkAt]
    exact Nat.min_le_left ..
  · rw [hsent, hlen]
    rfl

/-- Settles O35: the loop stops at the first chunk refused (`LoopEnds.failed_of_refuses`), and the response waits out the last
record's pace (`Paced.facts`). -/
theorem splitStopsAtTheFirstFailure : Obligations.SplitStopsAtTheFirstFailure := by
  unfold Obligations.SplitStopsAtTheFirstFailure
  rintro s m n f hwfv rfl hm rfl hf haccepts ⟨lag, took, hrefused⟩
  obtain ⟨recs, t, hend, hlen, hrecs, hanswers, hpaced, hsent, hcount⟩ :=
    (splitStage_loopEnds hwfv hm).failed_of_refuses hf haccepts hrefused
  rw [Nat.sub_self] at hrecs
  rw [Nat.sub_self, Nat.zero_add] at hend hcount
  obtain ⟨-, -, hresponse, -⟩ := hpaced.facts
  refine ⟨_, recs, hend, ?_, hlen, ?_, fun k hk => ?_, hresponse, ?_⟩
  · rw [raise_nchunk, hcount]
    split_ifs with hzero
    · exact hzero.symm
    · exact toNat_chunkIndex hm hf.le
  · rw [hrecs.flatMap_bytes, hlen]
    rfl
  · obtain ⟨hbytes, hfirst, hlast⟩ := hrecs.chunk k hk
    rw [Nat.zero_add] at hbytes hfirst hlast
    refine ⟨?_, hfirst, hlast, hanswers k hk⟩
    rw [hbytes, length_chunkAt]
    exact Nat.min_le_left ..
  · rw [hsent, hlen]
    rfl

/-! ### The pacing of the records (R172) -/

/-- With a sink that answers, the records of a SPLIT keep the pacing law from a time at or after its issue to its response. -/
theorem splitStage_paced {s t : State} (h : SinkAnswers s) (ht : splitStage s = .next t) :
    ∃ recs start, t.txlog = s.txlog ++ recs ∧ s.now ≤ start ∧ Paced s.paceGap.toNat s.paceFrame.toNat start t.now recs := by
  rcases splitStage_ends s with ⟨-, hend⟩ | ⟨-, -, hend⟩ | ⟨-, -, hends⟩
  · obtain rfl := Host.Outcome.next.inj (hend.symm.trans ht)
    exact ⟨[], s.now, (List.append_nil _).symm, le_rfl, le_rfl⟩
  · obtain rfl := Host.Outcome.next.inj (hend.symm.trans ht)
    exact ⟨[], s.now, (List.append_nil _).symm, le_rfl, le_rfl⟩
  · rw [ht] at hends
    cases hends with
    | sent recs u _ _ _ paced _ frame => exact ⟨recs, _, congrArg State.txlog frame, Nat.le_max_left .., paced⟩
    | failed f recs u _ _ _ _ paced _ frame => exact ⟨recs, _, congrArg State.txlog frame, Nat.le_max_left .., paced⟩
    | reset f _ _ _ u log _ _ _ event =>
      obtain ⟨lag, took, seen, event⟩ := event
      exact absurd event h.ne_reset

end Sys2Proof.Machine
end

section
/-! What a command hands over (43_split.md R175; 20_memory.md R79) and that it returns (43_split.md R181; 60_exceptions.md R216). -/

namespace Sys2Proof.Machine

/-! ### The stages that send nothing -/

/-- A stage that leaves the log and the sink as they were. -/
def SendsNothing (s t : State) : Prop := t.txlog = s.txlog ∧ t.sink = s.sink

theorem execCfgcheck_sendsNothing {s t : State} (ht : execCfgcheck s = .next t) : SendsNothing s t := by
  by_cases hc : sfold s.cpkt.toList = 0
  · exact Host.Outcome.next.inj ((execCfgcheck_ok hc).symm.trans ht) ▸ ⟨rfl, rfl⟩
  · exact Host.Outcome.next.inj ((execCfgcheck_bad hc).symm.trans ht) ▸ ⟨rfl, rfl⟩

theorem execCfgbuild_sendsNothing {s t : State} (ht : execCfgbuild s = .next t) : SendsNothing s t :=
  Host.Outcome.next.inj ht ▸ ⟨rfl, rfl⟩

theorem mapStage_sendsNothing (s : State) : SendsNothing s (mapStage s) := by
  rcases mapStage_ends s with ⟨-, hend⟩ | ⟨-, e, info, -, hend⟩
  · exact hend ▸ ⟨rfl, rfl⟩
  · exact hend ▸ ⟨rfl, rfl⟩

theorem packStage_sendsNothing (src : Src) (s : State) : SendsNothing s (packStage src s) := by
  rcases packStage_ends src s with ⟨-, -, hend⟩ | ⟨-, -, hend⟩ | ⟨-, -, hend⟩
  · exact hend ▸ ⟨rfl, rfl⟩
  · exact hend ▸ ⟨rfl, rfl⟩
  · exact hend ▸ ⟨rfl, rfl⟩

theorem frameStage_sendsNothing (s : State) : SendsNothing s (frameStage s) := by
  rcases frameStage_ends s with ⟨-, hend⟩ | ⟨-, hend⟩
  · exact hend ▸ ⟨rfl, rfl⟩
  · exact hend ▸ ⟨rfl, rfl⟩

/-! ### Errors before the first hand-over -/

/-- A SPLIT that ends with an error other than E_XPORT ended at its checks: a reset leaves RESULT 0. -/
theorem splitStage_sendsNothing {s t : State} (ht : splitStage s = .next t) (hbad : t.result ≠ 0) (hxport : t.result ≠ 2) :
    SendsNothing s t := by
  rcases splitStage_ends s with ⟨-, hend⟩ | ⟨-, -, hend⟩ | ⟨-, -, hends⟩
  · exact Host.Outcome.next.inj (hend.symm.trans ht) ▸ ⟨rfl, rfl⟩
  · exact Host.Outcome.next.inj (hend.symm.trans ht) ▸ ⟨rfl, rfl⟩
  · rw [ht] at hends
    cases hends with
    | sent => exact absurd rfl hbad
    | failed => exact absurd rfl hxport
    | reset => exact absurd rfl hbad

theorem exec_sendsNothing_of_error {i : Instr} {s t : State} (ht : exec i s = .next t) (hbad : t.result ≠ 0)
    (hxport : t.result ≠ 2) : SendsNothing s t := by
  refine exec_of_stages (R := SendsNothing)
    (Q := fun s o => ∀ t, o = .next t → t.result ≠ 0 → t.result ≠ 2 → SendsNothing s t)
    ?next ?andThen ?build ?check ?map ?pack ?frame ?split i s t ht hbad hxport
  case next => rintro s t h _ ⟨⟩ - -; exact h
  case andThen =>
    rintro s t o ⟨hlog, hsink⟩ - hQ v hv h₀ h₂
    obtain ⟨hlog', hsink'⟩ := hQ v hv h₀ h₂
    exact ⟨hlog'.trans hlog, hsink'.trans hsink⟩
  case build => exact fun s t => execCfgbuild_sendsNothing
  case check => exact fun s t => execCfgcheck_sendsNothing
  case map => exact mapStage_sendsNothing
  case pack => exact packStage_sendsNothing
  case frame => exact frameStage_sendsNothing
  case split => exact fun s t ht => splitStage_sendsNothing ht

theorem exec_sendsNothing {i : Instr} {s t : State} (hsplit : i ≠ .split) (hrun : ∀ src, i ≠ .run src)
    (ht : exec i s = .next t) : SendsNothing s t := by
  cases i with
  | cfgbuild => exact execCfgbuild_sendsNothing ht
  | cfgcheck => exact execCfgcheck_sendsNothing ht
  | map => exact Host.Outcome.next.inj ht ▸ mapStage_sendsNothing s
  | pack src => exact Host.Outcome.next.inj ht ▸ packStage_sendsNothing src s
  | frame => exact Host.Outcome.next.inj ht ▸ frameStage_sendsNothing s
  | split => exact absurd rfl hsplit
  | run src => exact absurd rfl (hrun src)

/-- Settles O47: an error other than E_XPORT comes before the first hand-over (`exec_sendsNothing_of_error`), and the stages but SPLIT
hand over nothing (`exec_sendsNothing`). -/
theorem noByteOfABadFrameIsSent : Obligations.NoByteOfABadFrameIsSent := by
  unfold Obligations.NoByteOfABadFrameIsSent
  exact fun i s t ht => ⟨exec_sendsNothing_of_error ht, fun hsplit hrun => exec_sendsNothing hsplit hrun ht⟩

/-! ### Every command returns -/

/-- With a sink that speaks and a clock that moves the emission loop has nothing to wait for ever for. -/
theorem splitStage_returns {s : State} (hspeaks : SinkSpeaks s) (hmoves : ClockMoves s) : ∃ t, splitStage s = .next t := by
  rcases splitStage_ends s with ⟨-, hend⟩ | ⟨-, -, hend⟩ | ⟨-, -, hends⟩
  · exact ⟨_, hend⟩
  · exact ⟨_, hend⟩
  · generalize splitStage s = out at hends ⊢
    cases hends with
    | sent => exact ⟨_, rfl⟩
    | failed => exact ⟨_, rfl⟩
    | reset => exact ⟨_, rfl⟩
    | hangs f _ _ why =>
      obtain hsilent | ⟨a, lag, took, hstalls, -⟩ := why
      · exact absurd rfl (hspeaks _ (List.mem_of_getElem? hsilent))
      · exact absurd rfl (hmoves _ (List.mem_of_getElem? hstalls) a lag took)

theorem exec_returns {i : Instr} {s : State} (hspeaks : SinkSpeaks s) (hmoves : ClockMoves s) : ∃ t, exec i s = .next t := by
  refine exec_of_stages (R := SendsNothing) (Q := fun s o => SinkSpeaks s → ClockMoves s → ∃ t, o = .next t)
    ?next ?andThen ?build ?check ?map ?pack ?frame ?split i s hspeaks hmoves
  case next => exact fun s t _ _ _ => ⟨t, rfl⟩
  case andThen =>
    rintro s t o ⟨-, hsink⟩ - hQ hspeaks hmoves
    exact hQ (by rwa [SinkSpeaks, hsink]) (by rwa [ClockMoves, hsink])
  case build => exact fun s t => execCfgbuild_sendsNothing
  case check => exact fun s t => execCfgcheck_sendsNothing
  case map => exact mapStage_sendsNothing
  case pack => exact packStage_sendsNothing
  case frame => exact frameStage_sendsNothing
  case split => exact fun s => splitStage_returns

/-- Settles O45: SPLIT returns (`splitStage_returns`), and RUN with it; the other commands have no wait. -/
theorem everyCommandReturns : Obligations.EveryCommandReturns := by
  unfold Obligations.EveryCommandReturns
  rintro i s (⟨hspeaks, hmoves⟩ | ⟨hsplit, hrun⟩)
  · exact exec_returns hspeaks hmoves
  · cases i with
    | split => exact absurd rfl hsplit
    | run src => exact absurd rfl (hrun src)
    | cfgbuild | cfgcheck | map | pack src | frame => exact ⟨_, rfl⟩

end Sys2Proof.Machine
end

section
/-! RUN (43_split.md R180): the stages issued in turn, and the frame they send of a canvas (30_encoding.md R97, R98). -/

namespace Sys2Proof.Machine

/-! ### The stages in turn -/

/-- The stages of RUN from PACK on. -/
def packToSplit (src : Src) (s : State) : Host.Outcome State Fault Refusal :=
  thenStage (packStage src s) fun t => thenStage (frameStage t) splitStage

theorem execRun_canvas (s : State) : exec (.run .canvas) s = packToSplit .canvas s := rfl

theorem execRun_reorder (s : State) : exec (.run .reorder) s = thenStage (mapStage s) (packToSplit .reorder) := rfl

/-- Settles O41: `andThen` after a stage is `thenStage`, and after a chain of stages it is the chain with one stage more. -/
theorem runIsItsStagesInTurn : Obligations.RunIsItsStagesInTurn := by
  unfold Obligations.RunIsItsStagesInTurn
  intro s andThen hdef
  have hstage : ∀ t i, andThen (.next t) i = thenStage t (exec i) := fun t i => hdef (.next t) i
  have hchain : ∀ t f i, andThen (thenStage t f) i = thenStage t fun u => andThen (f u) i := fun t f i => by
    by_cases hok : t.result = 0
    · simp only [thenStage, if_pos hok]
    · simp only [thenStage, if_neg hok, hstage]
  have hpack : ∀ src t, andThen (andThen (exec (.pack src) t) .frame) .split = packToSplit src t := fun src t =>
    calc andThen (andThen (.next (packStage src t)) .frame) .split
        = thenStage (packStage src t) fun u => andThen (.next (frameStage u)) .split := by rw [hstage, hchain]; rfl
      _ = packToSplit src t := by simp only [hstage]; rfl
  refine ⟨?_, (hpack .canvas s).symm⟩
  calc exec (.run .reorder) s
      = thenStage (mapStage s) fun t => andThen (andThen (exec (.pack .reorder) t) .frame) .split := by
        simp only [hpack]; rfl
    _ = andThen (andThen (andThen (.next (mapStage s)) (.pack .reorder)) .frame) .split := by
        rw [hstage, hchain, hchain]

/-! ### The bytes of the frame -/

/-- What was written from cell 0 on is what is read there. -/
theorem map_read_writeFrom {n : Nat} (m : Memory n) (vs : List (BitVec n)) (free : Nat → BitVec n) :
    (List.range vs.length).map (fun i => ((m.writeFrom 0 vs).read i).getD (free i)) = vs := by
  apply List.ext_getElem
  · simp
  · intro i _ hi
    simp [Memory.read_writeFrom_lt m hi]

/-- An accepted source of PACK leaves in PKF the marker and the mask bytes. -/
theorem packedBytes_packStage {src : Src} {s : State} (hrb : src = .reorder → s.rbv = true)
    (hfb : src = .canvas → pixelCount s ≤ Config.fbDepth) :
    packedBytes (packStage src s) = Config.im :: maskBytes (packCount src s) (packPixel src s) := by
  have hlen : (packStage src s).pklen.toNat = (Config.im :: maskBytes (packCount src s) (packPixel src s)).length := by
    rw [packStage_ok hrb hfb, done_pklen, toNat_packedLength, List.length_cons, length_maskBytes, Nat.add_comm]
  rw [packedBytes, hlen, packStage_ok hrb hfb]
  exact map_read_writeFrom _ _ _

/-- FRAME puts `OM` before the bytes of PKF. -/
theorem wireBytes_frameStage {s : State} (h : s.pkv = true) (hlen : s.pklen.toNat + 1 < 2 ^ 32) :
    wireBytes (frameStage s) = Config.om :: packedBytes s := by
  have hwflen : (frameStage s).wflen.toNat = (Config.om :: packedBytes s).length := by
    rw [frameStage_ok h, done_wflen, List.length_cons, length_packedBytes]
    exact Nat.mod_eq_of_lt hlen
  rw [wireBytes, hwflen, frameStage_ok h]
  exact map_read_writeFrom _ _ _

/-- The mask byte of group `g` stands behind the two marks. -/
theorem isMaskByte_of_framed {n g : Nat} (pixel : Nat → Byte) (hg : g < ceilDiv n 7) :
    ∃ b, (Config.om :: Config.im :: maskBytes n pixel)[2 + g]? = some b ∧ IsMaskByte n pixel g b := by
  refine ⟨groupMask n pixel g, ?_, isMaskByte_groupMask n pixel g⟩
  rw [Nat.add_comm, List.getElem?_cons_succ, List.getElem?_cons_succ, maskBytes]
  simp [hg]

/-! ### The pipeline on an accepted source -/

/-- The records `recs` hand over `wire` in chunks of 1 to `m` bytes, all accepted, and NCHUNK of `t` counts them (R171). -/
structure FrameSent (m : Nat) (wire : List Byte) (t : State) (recs : List TxRecord) : Prop where
  number : recs.length = ceilDiv wire.length m
  count : t.nchunk.toNat = recs.length
  chunks : ∀ r ∈ recs, 1 ≤ r.bytes.length ∧ r.bytes.length ≤ m ∧ r.answer = .ok
  bytes : recs.flatMap TxRecord.bytes = wire

/-- What a run that ends OK changes from `s` to `t`: the buffers and their flags, the report, and what the hand-overs change. -/
def RunFrame (src : Src) (s t : State) (recs : List TxRecord) : Prop :=
  t = { s with
    rbv := if src = .reorder then false else s.rbv
    pkv := false
    wfv := false
    rb := t.rb
    rblen := t.rblen
    pkf := t.pkf
    pklen := t.pklen
    wfr := t.wfr
    wflen := t.wflen
    nchunk := t.nchunk
    txReadyAt := t.txReadyAt
    txlog := s.txlog ++ recs
    result := 0
    einfo := 0
    response := .result 0
    now := t.now
    sink := t.sink
    draws := t.draws }

section
variable {src : Src} {s : State} (hrb : src = .reorder → s.rbv = true) (hfb : src = .canvas → pixelCount s ≤ Config.fbDepth)
include hrb hfb

/-- Up to SPLIT the pipeline consumes its source and leaves a frame in WFR. -/
theorem frameStage_packStage :
    frameStage (packStage src s) = { s with
      rbv := if src = .reorder then false else s.rbv
      pkv := false
      wfv := true
      pkf := (frameStage (packStage src s)).pkf
      pklen := (frameStage (packStage src s)).pklen
      wfr := (frameStage (packStage src s)).wfr
      wflen := (frameStage (packStage src s)).wflen
      result := 0
      einfo := 0
      response := .result 0
      draws := (frameStage (packStage src s)).draws } := by
  have hpkv : (packStage src s).pkv = true := by rw [packStage_ok hrb hfb]; rfl
  rw [frameStage_ok hpkv, packStage_ok hrb hfb]
  rfl

theorem wireBytes_frameStage_packStage :
    wireBytes (frameStage (packStage src s)) =
      Config.om :: Config.im :: maskBytes (packCount src s) (packPixel src s) := by
  have hpkv : (packStage src s).pkv = true := by rw [packStage_ok hrb hfb]; rfl
  have hpklen : (packStage src s).pklen.toNat = 1 + ceilDiv (packCount src s) 7 := by
    rw [packStage_ok hrb hfb]
    exact toNat_packedLength src s
  have hcount : packCount src s < 2 ^ 32 := packCount_lt src s
  rw [wireBytes_frameStage hpkv (by rw [hpklen]; unfold ceilDiv; omega), packedBytes_packStage hrb hfb]

theorem packToSplit_eq_splitStage : packToSplit src s = splitStage (frameStage (packStage src s)) := by
  have hpack : (packStage src s).result = 0 := by rw [packStage_ok hrb hfb]; rfl
  have hframe : (frameStage (packStage src s)).result = 0 := by rw [frameStage_packStage hrb hfb]
  rw [packToSplit, thenStage, if_pos hpack, thenStage, if_pos hframe]

/-- With a sink that accepts every chunk, the pipeline from PACK on hands over the marks and the mask bytes, and leaves RB. -/
theorem packToSplit_sent (hm : 1 ≤ s.maxchunk.toNat)
    (haccepts : SinkAccepts (ceilDiv (2 + ceilDiv (packCount src s) 7) s.maxchunk.toNat) s) :
    ∃ t recs, packToSplit src s = .next t ∧
      FrameSent s.maxchunk.toNat (Config.om :: Config.im :: maskBytes (packCount src s) (packPixel src s)) t recs ∧
      RunFrame src s t recs ∧ t.rb = s.rb ∧ t.rblen = s.rblen := by
  have hbytes := wireBytes_frameStage_packStage hrb hfb
  have hframe := frameStage_packStage hrb hfb
  rw [packToSplit_eq_splitStage hrb hfb]
  generalize frameStage (packStage src s) = u at hbytes hframe ⊢
  have hwfv : u.wfv = true := by rw [hframe]
  have hmaxchunk : u.maxchunk = s.maxchunk := by rw [hframe]
  have hsink : u.sink = s.sink := by rw [hframe]
  have hwflen : u.wflen.toNat = 2 + ceilDiv (packCount src s) 7 := by
    rw [← length_wireBytes, hbytes, List.length_cons, List.length_cons, length_maskBytes]
    omega
  obtain ⟨t, recs, hend, hcount, hlen, -, hwire, hchunks, ht⟩ := splitHandsOverTheWholeFrame u _ _ _ hwfv rfl
    (by rwa [hmaxchunk]) rfl rfl (by rwa [SinkAccepts, hwflen, hmaxchunk, hsink])
  refine ⟨t, recs, hend, ⟨?_, hcount.trans hlen.symm, fun r hr => ?_, hwire.trans hbytes⟩, ?_, ?_, ?_⟩
  · rw [hlen, ← hbytes, length_wireBytes, hmaxchunk]
  · obtain ⟨k, hk, rfl⟩ := List.getElem_of_mem hr
    obtain ⟨hpos, hle, -, -, -, hok⟩ := hchunks k hk
    exact ⟨hpos, hmaxchunk ▸ hle, hok⟩
  · rw [RunFrame, ht, hframe]
  · rw [ht, hframe]
  · rw [ht, hframe]

end

/-! ### The frame of the canvas -/

/-- After MAP on a good layout PACK from RB packs the pixels of the canvas in transmission order (42_panel_map.md R153). -/
theorem GoodLayout.maskBytes_mapStage {s : State} (h : GoodLayout s) :
    maskBytes (pixelCount s) (packPixel .reorder (mapStage s)) = maskBytes (pixelCount s) (wirePixel .reorder s) :=
  maskBytes_congr fun j hj => by
    rw [packPixel, readRb, mapStage_ok h, done_rb, h.read_mapped_position hj]
    rfl

/-- RUN on a canvas it accepts, with a sink that accepts every chunk. -/
theorem execRun_sent {src : Src} {s : State} (hgood : src = .reorder → GoodLayout s)
    (hfits : src = .canvas → pixelCount s ≤ Config.fbDepth) (hm : 1 ≤ s.maxchunk.toNat)
    (haccepts : SinkAccepts (ceilDiv (2 + ceilDiv (pixelCount s) 7) s.maxchunk.toNat) s) :
    ∃ t recs, exec (.run src) s = .next t ∧
      FrameSent s.maxchunk.toNat (Config.om :: Config.im :: maskBytes (pixelCount s) (wirePixel src s)) t recs ∧
      RunFrame src s t recs ∧ (src = .canvas → t.rb = s.rb ∧ t.rblen = s.rblen) := by
  cases src with
  | canvas =>
    obtain ⟨t, recs, hend, hsent, hframe, hkept⟩ := packToSplit_sent (src := .canvas) nofun hfits hm haccepts
    exact ⟨t, recs, (execRun_canvas s).trans hend, hsent, hframe, fun _ => hkept⟩
  | reorder =>
    have hmap := mapStage_ok (hgood rfl)
    have hcount : packCount .reorder (mapStage s) = pixelCount s := by
      rw [hmap]
      exact toNat_pixelCount s
    have hmaxchunk : (mapStage s).maxchunk = s.maxchunk := by rw [hmap]; rfl
    have hsink : (mapStage s).sink = s.sink := by rw [hmap]; rfl
    obtain ⟨t, recs, hend, hsent, hframe, -⟩ := packToSplit_sent (src := .reorder) (s := mapStage s)
      (fun _ => by rw [hmap]; rfl) nofun (by rwa [hmaxchunk]) (by rwa [SinkAccepts, hcount, hmaxchunk, hsink])
    refine ⟨t, recs, ?_, ?_, ?_, nofun⟩
    · rw [execRun_reorder, thenStage, if_pos (by rw [hmap]; rfl), hend]
    · rwa [hcount, hmaxchunk, (hgood rfl).maskBytes_mapStage] at hsent
    · rw [hmap] at hframe
      exact hframe

/-- Settles O42: `execRun_sent`, with the bytes handed over read off one by one. -/
theorem runSendsTheWireFrameOfTheCanvas : Obligations.RunSendsTheWireFrameOfTheCanvas := by
  unfold Obligations.RunSendsTheWireFrameOfTheCanvas
  rintro src s n l rfl rfl hgood hfits hm haccepts
  obtain ⟨t, recs, hend, hsent, hframe, hkept⟩ := execRun_sent hgood hfits hm haccepts
  have hlength : (Config.om :: Config.im :: maskBytes (pixelCount s) (wirePixel src s)).length = 2 + ceilDiv (pixelCount s) 7 := by
    rw [List.length_cons, List.length_cons, length_maskBytes]
    omega
  refine ⟨t, recs, _, hend, hlength ▸ hsent.number, hsent.count, hsent.chunks, hsent.bytes.symm, hlength, rfl, rfl,
    fun g hg => isMaskByte_of_framed _ hg, hframe, hkept⟩

end Sys2Proof.Machine
end

section
/-! Times (43_split.md R172; 70_reset_and_hazards.md R250): `eraseTimes` goes through every operation of the WFU, so two states that
differ only in times stay so. -/

namespace Sys2Proof.Machine

/-! ### The shared operations -/

section
variable (s : State)

@[simp] theorem eraseTimes_elapse (k : Nat) : eraseTimes (elapse k s) = eraseTimes s := rfl

@[simp] theorem eraseTimes_waitUntil (k : Nat) : eraseTimes (waitUntil k s) = eraseTimes s := rfl

@[simp] theorem eraseTimes_setDeadline (pace : Word) : eraseTimes (setDeadline pace s) = eraseTimes s := rfl

theorem eraseTimes_raise (e : ErrKind) (info : Word) : eraseTimes (raise e info s) = raise e info (eraseTimes s) := rfl

theorem eraseTimes_done : eraseTimes (done s) = done (eraseTimes s) := rfl

theorem eraseTimes_consumeWfr : eraseTimes (consumeWfr s) = consumeWfr (eraseTimes s) := rfl

theorem eraseTimes_applyReset : eraseTimes (applyReset s) = applyReset (eraseTimes s) := rfl

theorem eraseTimes_resetWithLog (log : List TxRecord) :
    eraseTimes { applyReset s with txlog := log } =
      { applyReset (eraseTimes s) with txlog := log.map fun r => { r with tStart := 0, tEnd := 0 } } := rfl

theorem eraseTimes_takeSinkEvent : eraseTimes (takeSinkEvent s) = takeSinkEvent (eraseTimes s) := by
  simp [takeSinkEvent, eraseTimes]

/-- The record of a hand-over without its times is that of one that took none. -/
theorem eraseTimes_recordAnswer (bytes : List Byte) (first last : Bool) (a : Answer) (lag took : Nat) :
    eraseTimes (recordAnswer bytes first last a lag took s) = recordAnswer bytes first last a 0 0 (eraseTimes s) := by
  rw [recordAnswer, recordAnswer, ← eraseTimes_takeSinkEvent]
  simp [eraseTimes]

/-! ### The stages that send nothing -/

theorem eraseTimes_mapStage : eraseTimes (mapStage s) = mapStage (eraseTimes s) := by
  rcases mapStage_ends s with ⟨hgood, hend⟩ | ⟨hbad, -⟩
  · have hgood' : GoodLayout (eraseTimes s) := { hgood with }
    rw [hend, mapStage_ok hgood']
    rfl
  · cases he : mapError s with
    | none => exact absurd ((mapError_eq_none s).1 he) hbad
    | some p =>
      have he' : mapError (eraseTimes s) = some p := he
      rw [mapStage_error he, mapStage_error he']
      rfl

theorem eraseTimes_packStage (src : Src) : eraseTimes (packStage src s) = packStage src (eraseTimes s) := by
  rcases packStage_cases src s with ⟨hrb, hfb⟩ | ⟨rfl, hrbv⟩ | ⟨rfl, hlarge⟩
  · rw [packStage_ok hrb hfb, packStage_ok (s := eraseTimes s) hrb hfb]
    rfl
  · rw [packStage_noRb hrbv, packStage_noRb (s := eraseTimes s) hrbv]
    rfl
  · rw [packStage_tooLarge hlarge, packStage_tooLarge (s := eraseTimes s) hlarge]
    rfl

theorem eraseTimes_frameStage : eraseTimes (frameStage s) = frameStage (eraseTimes s) := by
  cases hpkv : s.pkv with
  | true =>
    rw [frameStage_ok hpkv, frameStage_ok (s := eraseTimes s) hpkv]
    rfl
  | false =>
    rw [frameStage_noPkf hpkv, frameStage_noPkf (s := eraseTimes s) hpkv]
    rfl

/-! ### The host's register and memory transactions -/

theorem eraseTimes_hostRegWrite (n : Byte) (v : Word) : eraseTimes (hostRegWrite n v s) = hostRegWrite n v (eraseTimes s) := by
  cases hn : regOfNumber n with
  | none =>
    rw [hostRegWrite_of_reserved hn, hostRegWrite_of_reserved hn]
    rfl
  | some r =>
    rw [hostRegWrite_of_regOfNumber hn, hostRegWrite_of_regOfNumber hn]
    cases r <;> rfl

theorem eraseTimes_hostRegRead (n : Byte) : eraseTimes (hostRegRead n s) = hostRegRead n (eraseTimes s) := by
  have hvalue : portValue n (eraseTimes s) = portValue n s := portValue_congr (fun r => by cases r <;> rfl) n
  rw [hostRegRead_eq, hostRegRead_eq, hvalue]
  rfl

theorem eraseTimes_hostMemWrite (sp : Space) (i : Nat) (v : Word) :
    eraseTimes (hostMemWrite sp i v s) = hostMemWrite sp i v (eraseTimes s) := by
  have hignored (h : capacity sp ≤ i ∨ sp = .rb ∨ sp = .pkf ∨ sp = .wfr) :
      eraseTimes (hostMemWrite sp i v s) = hostMemWrite sp i v (eraseTimes s) := by
    rw [hostMemWrite_ignored h, hostMemWrite_ignored h]
    rfl
  by_cases hi : capacity sp ≤ i
  · exact hignored (.inl hi)
  · have hlt : i < capacity sp := Nat.lt_of_not_le hi
    cases sp with
    | lut =>
      rw [hostMemWrite_lut hlt, hostMemWrite_lut hlt]
      rfl
    | fb =>
      rw [hostMemWrite_fb hlt, hostMemWrite_fb hlt]
      rfl
    | rb => exact hignored (.inr (.inl rfl))
    | pkf => exact hignored (.inr (.inr (.inl rfl)))
    | wfr => exact hignored (.inr (.inr (.inr rfl)))

theorem eraseTimes_hostMemRead (sp : Space) (i : Nat) :
    eraseTimes (hostMemRead sp i s) = hostMemRead sp i (eraseTimes s) := by
  by_cases hi : i < capacity sp
  · rw [hostMemRead_below hi, hostMemRead_below hi]
    cases sp <;> rfl
  · rw [hostMemRead_past (Nat.le_of_not_lt hi), hostMemRead_past (Nat.le_of_not_lt hi)]
    rfl

end

/-! ### Outcomes that differ only in times -/

/-- What reads no time is equal in states that differ only in times. -/
theorem eq_of_eraseTimes_eq {α : Type} (f : State → α) (hf : ∀ s, f (eraseTimes s) = f s) {s s' : State}
    (h : eraseTimes s = eraseTimes s') : f s = f s' := by
  rw [← hf, h, hf]

/-- From states that differ only in times, `f` answers outcomes that differ only in times. -/
def IgnoresTimes (f : State → Host.Outcome State Fault Refusal) : Prop :=
  ∀ s s', eraseTimes s = eraseTimes s' → mapNext eraseTimes (f s) = mapNext eraseTimes (f s')

/-- An operation that `eraseTimes` goes through ignores times. -/
theorem ignoresTimes_next {f : State → State} (hf : ∀ s, eraseTimes (f s) = f (eraseTimes s)) :
    IgnoresTimes fun s => .next (f s) := fun s s' h => by
  simp only [mapNext, hf, h]

/-- So does a stage after one that `eraseTimes` goes through: whether it is reached does not depend on a time (R180). -/
theorem ignoresTimes_thenStage {f : State → State} {g : State → Host.Outcome State Fault Refusal}
    (hf : ∀ s, eraseTimes (f s) = f (eraseTimes s)) (hg : IgnoresTimes g) : IgnoresTimes fun s => thenStage (f s) g := by
  intro s s' h
  have hstates : eraseTimes (f s) = eraseTimes (f s') := by rw [hf, hf, h]
  have hresult : (f s).result = (f s').result := eq_of_eraseTimes_eq State.result (fun _ => rfl) hstates
  simp only [thenStage, hresult]
  split
  · exact hg _ _ hstates
  · exact congrArg Host.Outcome.next hstates

/-! ### One hand-over -/

/-- The environment's next choice for the sink, but for its times, does not depend on a time. -/
theorem eraseTimes_nextSinkEvent (s : State) :
    (nextSinkEvent (eraseTimes s)).eraseTimes = (nextSinkEvent s).eraseTimes := by
  cases hsink : s.sink with
  | nil => simp [nextSinkEvent, eraseTimes, hsink]
  | cons e es => cases e <;> simp [nextSinkEvent, eraseTimes, hsink, SinkEvent.eraseTimes]

/-- Two outcomes of `TxEmit` that differ only in times. -/
inductive SameEmission : Emission → Emission → Prop where
  | answered (a : Answer) (clockMoves : Bool) {s s' : State} (h : eraseTimes s = eraseTimes s') :
      SameEmission (.answered a clockMoves s) (.answered a clockMoves s')
  | silent : SameEmission .silent .silent
  | abandoned {s s' : State} (h : eraseTimes s = eraseTimes s') : SameEmission (.abandoned s) (.abandoned s')

theorem txEmit_sameEmission (bytes : List Byte) (first last : Bool) {s s' : State} (h : eraseTimes s = eraseTimes s') :
    SameEmission (txEmit bytes first last s) (txEmit bytes first last s') := by
  have hevent : (nextSinkEvent s).eraseTimes = (nextSinkEvent s').eraseTimes := by
    rw [← eraseTimes_nextSinkEvent, h, eraseTimes_nextSinkEvent]
  have hrecord : ∀ a lag took lag' took', eraseTimes (recordAnswer bytes first last a lag took s) =
      eraseTimes (recordAnswer bytes first last a lag' took' s') := fun a lag took lag' took' => by
    rw [eraseTimes_recordAnswer, eraseTimes_recordAnswer, h]
  unfold txEmit
  generalize nextSinkEvent s = e at hevent ⊢
  generalize nextSinkEvent s' = e' at hevent ⊢
  cases e with
  | answers a lag took =>
    cases e' with
    | answers b lag' took' =>
      obtain rfl := (SinkEvent.answers.inj hevent).1
      exact .answered a true (hrecord a lag took lag' took')
    | silent | stalls | reset => cases hevent
  | stalls a lag took =>
    cases e' with
    | stalls b lag' took' =>
      obtain rfl := (SinkEvent.stalls.inj hevent).1
      exact .answered a false (hrecord a lag took lag' took')
    | answers | silent | reset => cases hevent
  | silent =>
    cases e' with
    | silent => exact .silent
    | answers | stalls | reset => cases hevent
  | reset lag took seen =>
    cases e' with
    | reset lag' took' seen' =>
      obtain rfl := (SinkEvent.reset.inj hevent).2.2
      refine .abandoned ?_
      rw [eraseTimes_resetWithLog, eraseTimes_resetWithLog, eraseTimes_elapse, eraseTimes_elapse, eraseTimes_takeSinkEvent,
        eraseTimes_takeSinkEvent, h]
      cases seen <;> rfl
    | answers | silent | stalls => cases hevent

/-! ### SPLIT -/

/-- Whether the wait for a deadline just set ends does not depend on a time. -/
theorem waitEnds_setDeadline_eq (clockMoves : Bool) (pace : Word) (s s' : State) :
    waitEnds clockMoves (setDeadline pace s) = waitEnds clockMoves (setDeadline pace s') := by
  rw [Bool.eq_iff_iff, waitEnds_setDeadline, waitEnds_setDeadline]

/-- What follows such a wait, or the hang in its place, ignores times if it does so once the wait has ended (R216 (b)). -/
theorem afterWait_ignoresTimes {f : State → Host.Outcome State Fault Refusal} (hf : IgnoresTimes f) (clockMoves : Bool)
    {pace pace' : Word} (hpace : pace = pace') {s s' : State} (h : eraseTimes s = eraseTimes s') :
    mapNext eraseTimes (if waitEnds clockMoves (setDeadline pace s) then f (setDeadline pace s) else .fault .hang) =
      mapNext eraseTimes (if waitEnds clockMoves (setDeadline pace' s') then f (setDeadline pace' s') else .fault .hang) := by
  rw [hpace, waitEnds_setDeadline_eq clockMoves pace' s s']
  split
  · exact hf _ _ h
  · rfl

theorem eraseTimes_withNchunk {s s' : State} (h : eraseTimes s = eraseTimes s') (k : Word) :
    eraseTimes { s with nchunk := k } = eraseTimes { s' with nchunk := k } := by
  show { eraseTimes s with nchunk := k } = { eraseTimes s' with nchunk := k }
  rw [h]

theorem sendChunks_ignoresTimes (wire : List Byte) (m n left : Nat) : IgnoresTimes (sendChunks wire m n left) := by
  induction left with
  | zero =>
    intro s s' h
    simp only [sendChunks, mapNext, eraseTimes_done, eraseTimes_waitUntil, h]
  | succ left ih =>
    intro s s' h
    have hemission := txEmit_sameEmission (chunkAt wire m (n - (left + 1))) (decide (n - (left + 1) = 0)) (decide (left = 0))
      (s := waitUntil s.txReadyAt s) (s' := waitUntil s'.txReadyAt s') h
    unfold sendChunks
    simp only
    generalize txEmit _ _ _ (waitUntil s.txReadyAt s) = e at hemission ⊢
    generalize txEmit _ _ _ (waitUntil s'.txReadyAt s') = e' at hemission ⊢
    cases hemission with
    | silent => rfl
    | abandoned hstates => exact congrArg Host.Outcome.next hstates
    | @answered a clockMoves t t' hstates =>
      have hframe : t.paceFrame = t'.paceFrame := eq_of_eraseTimes_eq State.paceFrame (fun _ => rfl) hstates
      have hgap : t.paceGap = t'.paceGap := eq_of_eraseTimes_eq State.paceGap (fun _ => rfl) hstates
      cases a with
      | fail =>
        exact afterWait_ignoresTimes (f := fun u => .next (raise .xport _ (waitUntil u.txReadyAt u)))
          (ignoresTimes_next fun _ => rfl) clockMoves hframe hstates
      | ok => exact afterWait_ignoresTimes ih clockMoves (by rw [hframe, hgap]) (eraseTimes_withNchunk hstates _)

theorem splitStage_ignoresTimes : IgnoresTimes splitStage := by
  intro s s' h
  have hwfv : s.wfv = s'.wfv := eq_of_eraseTimes_eq State.wfv (fun _ => rfl) h
  have hmaxchunk : s.maxchunk = s'.maxchunk := eq_of_eraseTimes_eq State.maxchunk (fun _ => rfl) h
  have hwflen : s.wflen = s'.wflen := eq_of_eraseTimes_eq State.wflen (fun _ => rfl) h
  have hwire : wireBytes s = wireBytes s' := eq_of_eraseTimes_eq wireBytes (fun _ => rfl) h
  unfold splitStage
  simp only [hwfv, hmaxchunk, hwflen, hwire]
  split
  · simp only [mapNext, eraseTimes_raise, h]
  split
  · simp only [mapNext, eraseTimes_raise, h]
  · exact sendChunks_ignoresTimes _ _ _ _ _ _ (by rw [eraseTimes_consumeWfr, eraseTimes_consumeWfr, h])

/-! ### The commands -/

theorem packToSplit_ignoresTimes (src : Src) : IgnoresTimes (packToSplit src) :=
  ignoresTimes_thenStage (fun s => eraseTimes_packStage s src)
    (ignoresTimes_thenStage eraseTimes_frameStage splitStage_ignoresTimes)

theorem execCfgcheck_eraseTimes (s : State) : mapNext eraseTimes (execCfgcheck s) = execCfgcheck (eraseTimes s) := by
  by_cases hc : sfold s.cpkt.toList = 0
  · rw [execCfgcheck_ok hc, execCfgcheck_ok (s := eraseTimes s) hc]
    rfl
  · rw [execCfgcheck_bad hc, execCfgcheck_bad (s := eraseTimes s) hc]
    rfl

theorem execCfgcheck_ignoresTimes : IgnoresTimes execCfgcheck := fun s s' h => by
  rw [execCfgcheck_eraseTimes, execCfgcheck_eraseTimes, h]

theorem exec_ignoresTimes (i : Instr) : IgnoresTimes (exec i) := by
  cases i with
  | cfgbuild => exact ignoresTimes_next (fun _ => rfl)
  | cfgcheck => exact execCfgcheck_ignoresTimes
  | map => exact ignoresTimes_next eraseTimes_mapStage
  | pack src => exact ignoresTimes_next fun s => eraseTimes_packStage s src
  | frame => exact ignoresTimes_next eraseTimes_frameStage
  | split => exact splitStage_ignoresTimes
  | run src =>
    cases src with
    | reorder => exact ignoresTimes_thenStage eraseTimes_mapStage (packToSplit_ignoresTimes .reorder)
    | canvas => exact packToSplit_ignoresTimes .canvas

/-- Settles O37: the records' pacing is `splitStage_paced`, read off by `Paced.facts`; that no result depends on time is
`exec_ignoresTimes`. -/
theorem pacingLaw : Obligations.PacingLaw := by
  unfold Obligations.PacingLaw
  refine ⟨fun s t h ht => ?_, exec_ignoresTimes⟩
  obtain ⟨recs, start, hlog, hissue, hpaced⟩ := splitStage_paced h ht
  obtain ⟨horder, hgap, hresponse, -⟩ := hpaced.facts
  exact ⟨recs, hlog, fun k hk => (horder k hk).imp_left hissue.trans, hgap, hresponse⟩

/-! ### The step -/

theorem hostAction_ignoresTimes (a : HostAction) : IgnoresTimes (hostAction a) := by
  cases a with
  | regWrite n v => exact ignoresTimes_next fun s => eraseTimes_hostRegWrite s n v
  | regRead n => exact ignoresTimes_next fun s => eraseTimes_hostRegRead s n
  | memWrite sp i v => exact ignoresTimes_next fun s => eraseTimes_hostMemWrite s sp i v
  | memRead sp i => exact ignoresTimes_next fun s => eraseTimes_hostMemRead s sp i
  | reset => exact ignoresTimes_next eraseTimes_applyReset
  | cmd w =>
    cases hw : decode w with
    | ok i =>
      intro s s' h
      simp only [hostAction, hostCmd_of_decode hw]
      exact exec_ignoresTimes i s s' h
    | error r =>
      intro s s' h
      simp only [hostAction, hostCmd, hw, mapNext, eraseTimes_raise, h]

theorem mapNext_eraseTimes_elapse (k : Nat) (o : Host.Outcome State Fault Refusal) :
    mapNext eraseTimes (mapNext (elapse k) o) = mapNext eraseTimes o := by
  cases o <;> rfl

/-- The event without its times. -/
def HostEvent.eraseTimes (ev : HostEvent) : HostEvent := { ev with after := 0, busy := 0 }

/-- Events that differ only in times make one transaction, between times of their own. -/
theorem runEvent_ignoresTimes {ev ev' : HostEvent} (hev : ev.eraseTimes = ev'.eraseTimes) {s s' : State}
    (h : eraseTimes s = eraseTimes s') : mapNext eraseTimes (runEvent ev s) = mapNext eraseTimes (runEvent ev' s') := by
  have haction : ev.action = ev'.action := by
    show ev.eraseTimes.action = ev'.eraseTimes.action
    rw [hev]
  rw [runEvent, runEvent, mapNext_eraseTimes_elapse, mapNext_eraseTimes_elapse, haction]
  exact hostAction_ignoresTimes _ _ _ h

@[simp] theorem eraseTimes_script (s : State) : (eraseTimes s).script = s.script.map HostEvent.eraseTimes := rfl

theorem eraseTimes_withScript {s s' : State} (h : eraseTimes s = eraseTimes s') {rest rest' : List HostEvent}
    (hrest : rest.map HostEvent.eraseTimes = rest'.map HostEvent.eraseTimes) :
    eraseTimes { s with script := rest } = eraseTimes { s' with script := rest' } := by
  show { eraseTimes s with script := rest.map HostEvent.eraseTimes } =
    { eraseTimes s' with script := rest'.map HostEvent.eraseTimes }
  rw [h, hrest]

/-- Settles O48: the two scripts hold the same transactions, and the first of them ignores times (`runEvent_ignoresTimes`). -/
theorem timeChangesNoFunctionalResult : Obligations.TimeChangesNoFunctionalResult := by
  unfold Obligations.TimeChangesNoFunctionalResult
  intro s s' h
  have hscripts : s.script.map HostEvent.eraseTimes = s'.script.map HostEvent.eraseTimes := by
    rw [← eraseTimes_script, h, eraseTimes_script]
  cases hs : s.script with
  | nil =>
    have hs' : s'.script = [] := by simpa [hs] using hscripts.symm
    simp only [step, hs, hs', mapNext, h]
  | cons ev rest =>
    rw [hs, List.map_cons] at hscripts
    obtain ⟨ev', rest', hs', hev, hrest⟩ := List.map_eq_cons_iff.1 hscripts.symm
    rw [step_of_script hs, step_of_script hs']
    exact runEvent_ignoresTimes hev.symm (eraseTimes_withScript h hrest.symm)

end Sys2Proof.Machine
end

section
/-! When SPLIT never returns (60_exceptions.md R216 (a), (b)), and where it returns although the clock stops (R215). -/

namespace Sys2Proof.Machine

/-! ### The event that stops the loop -/

/-- With `left` chunks to go from `s`, what the environment does with the `f`-th of them leaves the WFU waiting for ever: the sink is
silent, or the clock stops short of a deadline that lies ahead (R216). -/
def StopsAt (s : State) (left f : Nat) : Prop :=
  s.sink[f]? = some .silent ∨ ∃ a lag took, s.sink[f]? = some (.stalls a lag took) ∧ paceAfter s left f a ≠ 0

section
variable {wire : List Byte} {m n left f : Nat} {s : State} {out : Host.Outcome State Fault Refusal}

theorem StopsAt.ne_reset {lag took : Nat} {seen : Option Cut} (h : StopsAt s left f) :
    s.sink[f]? ≠ some (.reset lag took seen) := by
  intro hreset
  rcases h with hsilent | ⟨a, lag', took', hstalls, -⟩
  · cases hsilent.symm.trans hreset
  · cases hstalls.symm.trans hreset

/-- A hand-over that was answered, and whose wait ended, is not one where the loop stops. -/
theorem StopsAt.not_passed {count : Nat} {a : Answer} (h : StopsAt s left f) (hf : f < count)
    (hanswered : ∀ e, s.sink[f]? = some e → e.IsAnswer a) (hwaits : WaitsEnded s left count) : False := by
  rcases h with hsilent | ⟨b, lag, took, hstalls, hpace⟩
  · obtain ⟨lag, took, h | h⟩ := hanswered _ hsilent
    · cases h
    · cases h
  · exact hpace (hwaits f hf b lag took hstalls)

/-- A loop that meets such an event, after chunks that were all accepted, hangs. -/
theorem LoopEnds.hangs_of_stopsAt (h : LoopEnds wire m n left s out) (hf : f < left) (haccepts : SinkAccepts f s)
    (hstops : StopsAt s left f) : out = .fault .hang := by
  cases h with
  | sent recs t len recsOk _ _ waits =>
    exact (hstops.not_passed hf (recsOk.answered f (by omega)) waits).elim
  | failed g recs t _ len recsOk answers _ waits =>
    by_cases hg : g < f
    · obtain ⟨lag, took, he⟩ := haccepts g hg
      have hfail := answers g (by omega)
      rw [if_pos rfl, recsOk.answer_eq _ he] at hfail
      cases hfail
    · exact (hstops.not_passed (by omega) (recsOk.answered f (by omega)) waits).elim
  | hangs => rfl
  | reset g _ before waits u log _ _ _ event =>
    obtain ⟨lag, took, seen, hreset⟩ := event
    rcases Nat.lt_trichotomy g f with hlt | rfl | hlt
    · obtain ⟨lag', took', he⟩ := haccepts g hlt
      cases he.symm.trans hreset
    · exact absurd hreset hstops.ne_reset
    · exact (hstops.not_passed hlt (before f hlt) waits).elim

end

/-! ### SPLIT -/

theorem splitStage_hangs {s : State} {f : Nat} (hwfv : s.wfv = true) (hm : s.maxchunk ≠ 0)
    (hf : f < ceilDiv s.wflen.toNat s.maxchunk.toNat) (haccepts : SinkAccepts f s)
    (hstops : StopsAt s (ceilDiv s.wflen.toNat s.maxchunk.toNat) f) : splitStage s = .fault .hang := by
  have hpos : s.maxchunk.toNat ≠ 0 := fun h => hm (BitVec.eq_of_toNat_eq h)
  exact (splitStage_loopEnds hwfv (Nat.pos_of_ne_zero hpos)).hangs_of_stopsAt hf haccepts hstops

/-- SPLIT returns, unless its loop meets an event that stops it. -/
theorem splitStage_returns_or_stops (s : State) :
    (∃ t, splitStage s = .next t) ∨ ∃ f, StopsAt s (ceilDiv s.wflen.toNat s.maxchunk.toNat) f := by
  rcases splitStage_ends s with ⟨-, hend⟩ | ⟨-, -, hend⟩ | ⟨-, -, hends⟩
  · exact .inl ⟨_, hend⟩
  · exact .inl ⟨_, hend⟩
  · generalize splitStage s = out at hends ⊢
    cases hends with
    | sent => exact .inl ⟨_, rfl⟩
    | failed => exact .inl ⟨_, rfl⟩
    | reset => exact .inl ⟨_, rfl⟩
    | hangs f _ _ why => exact .inr ⟨f, why⟩

/-- With both paces 0 no wait has any length (R215). -/
theorem paceAfter_eq_zero {s : State} (hgap : s.paceGap = 0) (hframe : s.paceFrame = 0) (left k : Nat) (a : Answer) :
    paceAfter s left k a = 0 := by
  rw [paceAfter, hgap, hframe, ite_self]

/-- Settles O39: a silent sink is one of the two events that stop the loop (`splitStage_hangs`). -/
theorem splitHangsOnASilentSink : Obligations.SplitHangsOnASilentSink := by
  unfold Obligations.SplitHangsOnASilentSink
  exact fun s f hwfv hm hf haccepts hsilent => splitStage_hangs hwfv hm hf haccepts (.inl hsilent)

/-- Settles O51: a clock that stops short of a deadline ahead is the other of the two events (`splitStage_hangs`); with both paces 0 no
deadline is ahead (`paceAfter_eq_zero`), so a sink that speaks leaves nothing that stops SPLIT (`splitStage_returns_or_stops`). -/
theorem splitHangsOnAStoppedClock : Obligations.SplitHangsOnAStoppedClock := by
  unfold Obligations.SplitHangsOnAStoppedClock
  constructor
  · rintro s n f lag took a hwfv hm rfl hf haccepts hstalls hpace
    exact splitStage_hangs hwfv hm hf haccepts (.inr ⟨a, lag, took, hstalls, hpace⟩)
  · intro s hgap hframe hspeaks
    refine (splitStage_returns_or_stops s).resolve_right ?_
    rintro ⟨f, hsilent | ⟨a, lag, took, -, hpace⟩⟩
    · exact absurd rfl (hspeaks _ (List.mem_of_getElem? hsilent))
    · exact hpace (paceAfter_eq_zero hgap hframe _ f a)

end Sys2Proof.Machine
end

section
/-! The results each command can return (60_exceptions.md R200; 43_split.md R180), stage by stage. -/

namespace Sys2Proof.Machine

/-! ### One stage -/

theorem execCfgcheck_result {s t : State} (ht : execCfgcheck s = .next t) : t.result = 0 ∨ t.result = 7 := by
  by_cases hc : sfold s.cpkt.toList = 0
  · exact Host.Outcome.next.inj ((execCfgcheck_ok hc).symm.trans ht) ▸ .inl rfl
  · exact Host.Outcome.next.inj ((execCfgcheck_bad hc).symm.trans ht) ▸ .inr rfl

/-- A MAP that ends OK has filled RB. -/
theorem mapStage_result (s : State) :
    ((mapStage s).result = 0 ∧ (mapStage s).rbv = true) ∨ (mapStage s).result = 3 ∨ (mapStage s).result = 5 := by
  rcases mapStage_ends s with ⟨-, hend⟩ | ⟨-, e, info, rfl | rfl, hend⟩
  · exact hend ▸ .inl ⟨rfl, rfl⟩
  · exact hend ▸ .inr (.inr rfl)
  · exact hend ▸ .inr (.inl rfl)

theorem packStage_reorder_result (s : State) : (packStage .reorder s).result = 0 ∨ (packStage .reorder s).result = 4 := by
  rcases packStage_ends .reorder s with ⟨-, -, hend⟩ | ⟨-, -, hend⟩ | ⟨hsrc, -⟩
  · exact hend ▸ .inl rfl
  · exact hend ▸ .inr rfl
  · cases hsrc

theorem packStage_canvas_result (s : State) :
    (pixelCount s ≤ Config.fbDepth ∧ (packStage .canvas s).result = 0) ∨ (packStage .canvas s).result = 5 := by
  rcases packStage_ends .canvas s with ⟨-, hfits, hend⟩ | ⟨hsrc, -⟩ | ⟨-, -, hend⟩
  · exact hend ▸ .inl ⟨hfits rfl, rfl⟩
  · cases hsrc
  · exact hend ▸ .inr rfl

theorem frameStage_result (s : State) : (frameStage s).result = 0 ∨ (frameStage s).result = 4 := by
  rcases frameStage_ends s with ⟨-, hend⟩ | ⟨-, hend⟩
  · exact hend ▸ .inl rfl
  · exact hend ▸ .inr rfl

/-- A reset that cuts a hand-over short leaves RESULT 0 (70_reset_and_hazards.md R230). -/
theorem LoopEnds.result_eq {wire : List Byte} {m n left : Nat} {s t : State} (h : LoopEnds wire m n left s (.next t)) :
    t.result = 0 ∨ t.result = 2 := by
  cases h with
  | sent => exact .inl rfl
  | failed => exact .inr rfl
  | reset => exact .inl rfl

/-- SPLIT of a frame that is there. -/
theorem splitStage_result_of_wfv {s t : State} (hwfv : s.wfv = true) (ht : splitStage s = .next t) :
    t.result = 0 ∨ t.result = 2 ∨ t.result = 5 := by
  rcases splitStage_ends s with ⟨hnone, -⟩ | ⟨-, -, hend⟩ | ⟨-, -, hends⟩
  · exact absurd (hwfv.symm.trans hnone) nofun
  · exact Host.Outcome.next.inj (hend.symm.trans ht) ▸ .inr (.inr rfl)
  · exact (ht ▸ hends).result_eq.imp_right .inl

theorem splitStage_result {s t : State} (ht : splitStage s = .next t) :
    t.result = 0 ∨ t.result = 2 ∨ t.result = 4 ∨ t.result = 5 := by
  cases hwfv : s.wfv with
  | true => exact (splitStage_result_of_wfv hwfv ht).imp_right (Or.imp_right .inr)
  | false => exact Host.Outcome.next.inj ((splitStage_noWfr hwfv).symm.trans ht) ▸ .inr (.inr (.inl rfl))

/-! ### RUN: the source of a stage is what the stage before it left, so no E_SEQ arises -/

theorem thenStage_of_ok {t : State} {f : State → Host.Outcome State Fault Refusal} (h : t.result = 0) :
    thenStage t f = f t := if_pos h

theorem thenStage_of_error {t : State} {f : State → Host.Outcome State Fault Refusal} (h : t.result ≠ 0) :
    thenStage t f = .next t := if_neg h

theorem packToSplit_result {src : Src} {s t : State} (hrb : src = .reorder → s.rbv = true)
    (hfb : src = .canvas → pixelCount s ≤ Config.fbDepth) (ht : packToSplit src s = .next t) :
    t.result = 0 ∨ t.result = 2 ∨ t.result = 5 := by
  have hwfv : (frameStage (packStage src s)).wfv = true := by rw [frameStage_packStage hrb hfb]
  exact splitStage_result_of_wfv hwfv ((packToSplit_eq_splitStage hrb hfb).symm.trans ht)

theorem execRun_canvas_result {s t : State} (ht : exec (.run .canvas) s = .next t) :
    t.result = 0 ∨ t.result = 2 ∨ t.result = 5 := by
  rw [execRun_canvas] at ht
  rcases packStage_canvas_result s with ⟨hfits, -⟩ | hparam
  · exact packToSplit_result (src := .canvas) nofun (fun _ => hfits) ht
  · rw [packToSplit, thenStage_of_error (by rw [hparam]; decide)] at ht
    exact Host.Outcome.next.inj ht ▸ .inr (.inr hparam)

theorem execRun_reorder_result {s t : State} (ht : exec (.run .reorder) s = .next t) :
    t.result = 0 ∨ t.result = 2 ∨ t.result = 3 ∨ t.result = 5 := by
  rw [execRun_reorder] at ht
  rcases mapStage_result s with ⟨hok, hrbv⟩ | herror
  · rw [thenStage_of_ok hok] at ht
    exact (packToSplit_result (src := .reorder) (fun _ => hrbv) nofun ht).imp_right (Or.imp_right .inr)
  · have hbad : (mapStage s).result ≠ 0 := by
      rcases herror with h | h
      · rw [h]; decide
      · rw [h]; decide
    rw [thenStage_of_error hbad] at ht
    exact Host.Outcome.next.inj ht ▸ .inr (.inr herror)

/-- Settles O44: the results of each stage, and of RUN those of its stages but E_SEQ (`execRun_reorder_result`,
`execRun_canvas_result`). -/
theorem eachCommandReturnsOnlyItsResults : Obligations.EachCommandReturnsOnlyItsResults := by
  unfold Obligations.EachCommandReturnsOnlyItsResults
  intro s t
  refine ⟨fun ht => ?build, execCfgcheck_result, fun ht => ?map, fun ht => ?pack, fun ht => ?packRaw, fun ht => ?frame,
    splitStage_result, execRun_reorder_result, execRun_canvas_result⟩
  case build => exact Host.Outcome.next.inj ht ▸ rfl
  case map => exact Host.Outcome.next.inj ht ▸ (mapStage_result s).imp_left And.left
  case pack => exact Host.Outcome.next.inj ht ▸ packStage_reorder_result s
  case packRaw => exact Host.Outcome.next.inj ht ▸ (packStage_canvas_result s).imp_left And.right
  case frame => exact Host.Outcome.next.inj ht ▸ frameStage_result s

end Sys2Proof.Machine
end

section
/-! Time never decreases (60_exceptions.md R213): only SPLIT's hand-overs and waits, and the times around a transaction, move it. -/

namespace Sys2Proof.Machine

/-! ### The commands -/

theorem execCfgcheck_now {s t : State} (ht : execCfgcheck s = .next t) : t.now = s.now := by
  by_cases hc : sfold s.cpkt.toList = 0
  · exact Host.Outcome.next.inj ((execCfgcheck_ok hc).symm.trans ht) ▸ rfl
  · exact Host.Outcome.next.inj ((execCfgcheck_bad hc).symm.trans ht) ▸ rfl

@[simp] theorem mapStage_now (s : State) : (mapStage s).now = s.now := by
  rcases mapStage_ends s with ⟨-, hend⟩ | ⟨-, e, info, -, hend⟩
  · exact hend ▸ rfl
  · exact hend ▸ rfl

@[simp] theorem packStage_now (src : Src) (s : State) : (packStage src s).now = s.now := by
  rcases packStage_ends src s with ⟨-, -, hend⟩ | ⟨-, -, hend⟩ | ⟨-, -, hend⟩
  · exact hend ▸ rfl
  · exact hend ▸ rfl
  · exact hend ▸ rfl

@[simp] theorem frameStage_now (s : State) : (frameStage s).now = s.now := by
  rcases frameStage_ends s with ⟨-, hend⟩ | ⟨-, hend⟩
  · exact hend ▸ rfl
  · exact hend ▸ rfl

theorem LoopEnds.now_le {wire : List Byte} {m n left : Nat} {s t : State} (h : LoopEnds wire m n left s (.next t)) :
    s.now ≤ t.now := by
  have of_paced : ∀ {recs finish}, Paced s.paceGap.toNat s.paceFrame.toNat (max s.now s.txReadyAt) finish recs →
      s.now ≤ finish := fun hpaced => by
    obtain ⟨-, -, -, -, -, hfinish⟩ := hpaced.facts
    exact (Nat.le_max_left ..).trans hfinish
  cases h with
  | sent recs u _ _ _ paced => exact of_paced paced
  | failed f recs u _ _ _ _ paced => exact of_paced paced
  | reset f _ _ _ u log later => exact later

theorem splitStage_now_le {s t : State} (ht : splitStage s = .next t) : s.now ≤ t.now := by
  rcases splitStage_ends s with ⟨-, hend⟩ | ⟨-, -, hend⟩ | ⟨-, -, hends⟩
  · exact Host.Outcome.next.inj (hend.symm.trans ht) ▸ le_rfl
  · exact Host.Outcome.next.inj (hend.symm.trans ht) ▸ le_rfl
  · exact (ht ▸ hends).now_le

theorem exec_now_le {i : Instr} {s t : State} (ht : exec i s = .next t) : s.now ≤ t.now := by
  refine exec_of_stages (R := fun s t => t.now = s.now) (Q := fun s o => ∀ t, o = .next t → s.now ≤ t.now)
    ?next ?andThen ?build ?check ?map ?pack ?frame ?split i s t ht
  case next => rintro s t h _ ⟨⟩; exact h.ge
  case andThen => exact fun s t o h _ hQ v hv => h.ge.trans (hQ v hv)
  case build => exact fun s t ht => Host.Outcome.next.inj ht ▸ rfl
  case check => exact fun s t => execCfgcheck_now
  case map => exact mapStage_now
  case pack => exact packStage_now
  case frame => exact frameStage_now
  case split => exact fun s t => splitStage_now_le

/-! ### The host's transactions -/

@[simp] theorem hostRegWrite_now (n : Byte) (v : Word) (s : State) : (hostRegWrite n v s).now = s.now := by
  rw [hostRegWrite_frame]

@[simp] theorem hostRegRead_now (n : Byte) (s : State) : (hostRegRead n s).now = s.now := by
  rw [hostRegRead_eq, respond_now, markUnless_now]

@[simp] theorem hostMemWrite_now (sp : Space) (i : Nat) (v : Word) (s : State) : (hostMemWrite sp i v s).now = s.now := by
  cases sp with
  | lut =>
    rcases Nat.lt_or_ge i Config.lutDepth with hi | hi
    · rw [hostMemWrite_lut hi]; rfl
    · rw [hostMemWrite_ignored (.inl hi)]; rfl
  | fb =>
    rcases Nat.lt_or_ge i Config.fbDepth with hi | hi
    · rw [hostMemWrite_fb hi]; rfl
    · rw [hostMemWrite_ignored (.inl hi)]; rfl
  | rb | pkf | wfr => rfl

@[simp] theorem hostMemRead_now (sp : Space) (i : Nat) (s : State) : (hostMemRead sp i s).now = s.now := by
  rcases Nat.lt_or_ge i (capacity sp) with hi | hi
  · rw [hostMemRead_below hi]; rfl
  · rw [hostMemRead_past hi]; rfl

theorem hostCmd_now_le {w : Byte} {s t : State} (ht : hostCmd w s = .next t) : s.now ≤ t.now := by
  cases hw : decode w with
  | ok i => exact exec_now_le ((hostCmd_of_decode hw s).symm.trans ht)
  | error r =>
    simp only [hostCmd, hw] at ht
    exact Host.Outcome.next.inj ht ▸ le_rfl

theorem hostAction_now_le {a : HostAction} {s t : State} (ht : hostAction a s = .next t) : s.now ≤ t.now := by
  cases a with
  | regWrite n v => exact Host.Outcome.next.inj ht ▸ (hostRegWrite_now n v s).ge
  | regRead n => exact Host.Outcome.next.inj ht ▸ (hostRegRead_now n s).ge
  | memWrite sp i v => exact Host.Outcome.next.inj ht ▸ (hostMemWrite_now sp i v s).ge
  | memRead sp i => exact Host.Outcome.next.inj ht ▸ (hostMemRead_now sp i s).ge
  | cmd w => exact hostCmd_now_le ht
  | reset => exact Host.Outcome.next.inj ht ▸ le_rfl

/-- An event takes the two times around its transaction, and what the transaction takes. -/
theorem runEvent_now_le {ev : HostEvent} {s t : State} (ht : runEvent ev s = .next t) : s.now ≤ t.now := by
  obtain ⟨u, hu, rfl⟩ := mapNext_eq_next ht
  calc s.now ≤ (elapse ev.after s).now := Nat.le_add_right ..
    _ ≤ u.now := hostAction_now_le hu
    _ ≤ (elapse ev.busy u).now := Nat.le_add_right ..

/-- Settles O49: an idle step takes no time, and an event never turns it back (`runEvent_now_le`). -/
theorem timeNeverDecreases : Obligations.TimeNeverDecreases := by
  unfold Obligations.TimeNeverDecreases
  intro s t ht
  cases hscript : s.script with
  | nil =>
    obtain rfl : s = t := by simpa [step, hscript] using ht
    exact le_rfl
  | cons ev rest =>
    rw [step_of_script hscript] at ht
    exact runEvent_now_le (s := { s with script := rest }) ht

end Sys2Proof.Machine
end

section
/-! Reset (70_reset_and_hazards.md R230, R231): the values a reset leaves, as an event of its own and in the middle of a SPLIT; and the
time a frame that ends OK takes (R250). -/

namespace Sys2Proof.Machine

/-! ### The values a reset leaves -/

/-- The register values are all a host can read of the registers. -/
theorem RegistersReset.of_readReg {s t : State} (hs : RegistersReset s) (h : ∀ r, readReg r t = readReg r s) : RegistersReset t := by
  intro n
  have hport : portValue n t = portValue n s := by
    cases hn : regOfNumber n with
    | none => rw [portValue_of_reserved hn, portValue_of_reserved hn]
    | some r => rw [portValue_of_regOfNumber hn, portValue_of_regOfNumber hn, h]
  exact hport.trans (hs n)

theorem RegistersReset.elapse {s : State} (h : RegistersReset s) (ticks : Nat) : RegistersReset (elapse ticks s) :=
  h.of_readReg fun r => readReg_elapse r ticks s

/-- A reset leaves the register values of `State.reset`, whatever it leaves in the log of a hand-over it cut short. -/
theorem readReg_resetWithLog (r : Reg) (s : State) (log : List TxRecord) :
    readReg r { applyReset s with txlog := log } = readReg r State.reset := by
  cases r <;> rfl

theorem registersReset_resetWithLog (s : State) (log : List TxRecord) : RegistersReset { applyReset s with txlog := log } :=
  reset_registersReset.of_readReg fun r => readReg_resetWithLog r s log

/-- Settles O7: the event resets the state (`registersReset_resetWithLog`, with an empty log), and the time it takes changes nothing
else. -/
theorem resetEventResets : Obligations.ResetEventResets := by
  unfold Obligations.ResetEventResets
  intro s after busy rest hscript
  let u := elapse after { s with script := rest }
  exact ⟨elapse busy (applyReset u), step_of_script hscript, (registersReset_resetWithLog u []).elapse busy,
    rfl, rfl, rfl, rfl, rfl, reset_memoriesUndefined, rfl, rfl⟩

/-! ### A reset in the middle of a SPLIT -/

theorem SinkEvent.not_isAnswer_reset {lag took : Nat} {seen : Option Cut} {a : Answer} :
    ¬ (SinkEvent.reset lag took seen).IsAnswer a := by
  rintro ⟨lag', took', h | h⟩
  · cases h
  · cases h

/-- What stops the loop is no accepted chunk. -/
theorem StopsAt.le_of_accepts {s : State} {left f g : Nat} (h : StopsAt s left g) (haccepts : SinkAccepts f s) : f ≤ g := by
  by_contra hlt
  obtain ⟨lag, took, he⟩ := haccepts g (by omega)
  rcases h with hsilent | ⟨a, lag', took', hstalls, -⟩
  · cases he.symm.trans hsilent
  · cases he.symm.trans hstalls

/-- A loop that a reset meets, after chunks that were all accepted, ends in the reset state, with at most a record of one chunk in the
log (R231). -/
theorem LoopEnds.reset_of_event {wire : List Byte} {m n left f lag took : Nat} {seen : Option Cut} {s : State}
    {out : Host.Outcome State Fault Refusal} (h : LoopEnds wire m n left s out) (hf : f < left) (haccepts : SinkAccepts f s)
    (hreset : s.sink[f]? = some (.reset lag took seen)) :
    ∃ u log, out = .next { applyReset u with txlog := log } ∧ (log = [] ∨ ∃ r, log = [r] ∧ r.bytes.length ≤ m) := by
  cases h with
  | sent recs t len recsOk => exact absurd (recsOk.answered f (by omega) _ hreset) SinkEvent.not_isAnswer_reset
  | failed g recs t _ len recsOk answers =>
    by_cases hg : g < f
    · obtain ⟨lag', took', he⟩ := haccepts g hg
      have hfail := answers g (by omega)
      rw [if_pos rfl, recsOk.answer_eq _ he] at hfail
      cases hfail
    · exact absurd (recsOk.answered f (by omega) _ hreset) SinkEvent.not_isAnswer_reset
  | hangs g _ before why =>
    have hstops : StopsAt s left g := why
    rcases Nat.eq_or_lt_of_le (hstops.le_of_accepts haccepts) with rfl | hlt
    · exact absurd hreset hstops.ne_reset
    · exact absurd (before f hlt _ hreset) SinkEvent.not_isAnswer_reset
  | reset g _ _ _ u log _ _ logOk =>
    refine ⟨u, log, rfl, logOk.imp_right ?_⟩
    rintro ⟨r, hlog, -, -, hbytes⟩
    rw [length_chunkAt] at hbytes
    exact ⟨r, hlog, hbytes.trans (Nat.min_le_left ..)⟩

/-- Settles O40: the loop ends in the reset state (`LoopEnds.reset_of_event`), whose values are those of O7. -/
theorem resetDuringSplitAbandonsIt : Obligations.ResetDuringSplitAbandonsIt := by
  unfold Obligations.ResetDuringSplitAbandonsIt
  intro s f lag took seen hwfv hm hf haccepts hreset
  have hpos : s.maxchunk.toNat ≠ 0 := fun h => hm (BitVec.eq_of_toNat_eq h)
  obtain ⟨u, log, hend, hlog⟩ :=
    (splitStage_loopEnds hwfv (Nat.pos_of_ne_zero hpos)).reset_of_event hf haccepts hreset
  exact ⟨_, hend, registersReset_resetWithLog u log, rfl, rfl, rfl, rfl, reset_memoriesUndefined, rfl, hlog⟩

/-! ### The time a frame takes -/

/-- With a sink that answers, a SPLIT that ends OK has handed over NCHUNK chunks, at their pace. -/
theorem splitStage_paced_of_ok {s t : State} (h : SinkAnswers s) (ht : splitStage s = .next t) (hok : t.result = 0) :
    ∃ recs start, t.txlog = s.txlog ++ recs ∧ t.nchunk.toNat = recs.length ∧
      Paced s.paceGap.toNat s.paceFrame.toNat start t.now recs := by
  rcases splitStage_ends s with ⟨-, hend⟩ | ⟨-, -, hend⟩ | ⟨-, hm, hends⟩
  · obtain rfl := Host.Outcome.next.inj (hend.symm.trans ht)
    exact absurd hok (errCode_ne_zero .seq)
  · obtain rfl := Host.Outcome.next.inj (hend.symm.trans ht)
    exact absurd hok (errCode_ne_zero .param)
  · rw [ht] at hends
    cases hends with
    | sent recs u len _ _ paced _ frame count =>
      refine ⟨recs, _, congrArg State.txlog frame, ?_, paced⟩
      rw [done_nchunk, count, len]
      split_ifs with hzero
      · exact hzero.symm
      · exact toNat_chunkIndex (Nat.pos_of_ne_zero hm) le_rfl
    | failed => exact absurd hok (errCode_ne_zero .xport)
    | reset f _ _ _ u log _ _ _ event =>
      obtain ⟨lag, took, seen, event⟩ := event
      exact absurd event h.ne_reset

/-- Settles O38: the SPLIT handed over NCHUNK chunks at their pace (`splitStage_paced_of_ok`), and `Paced.facts` adds the waits up. -/
theorem frameTakesAtLeastItsPacing : Obligations.FrameTakesAtLeastItsPacing := by
  unfold Obligations.FrameTakesAtLeastItsPacing
  intro s t h ht hok r hr
  obtain ⟨recs, start, hlog, hcount, hpaced⟩ := splitStage_paced_of_ok h ht hok
  obtain ⟨-, -, -, hduration, -⟩ := hpaced.facts
  have hfirst : recs[0]? = some r := by rwa [hlog, List.getElem?_append_right le_rfl, Nat.sub_self] at hr
  rw [hcount]
  exact hduration r hfirst

end Sys2Proof.Machine
end
